-- ==== Sys2Proof/Word.lean ====
section
/-! DEFINITION. The word types of FDPE (00_scope.md R9, R10). -/

namespace Sys2Proof

/-- A device address, a device byte or a host register index (R9, R50, R51). -/
abbrev Byte := BitVec 8

/-- A command word (R70). -/
abbrev CmdWord := BitVec 32

/-- The value one host access moves (R22, R23, R50). -/
abbrev HostWord := BitVec 64

/-- A channel number, the CH field of a command word (R71). -/
abbrev Channel := BitVec 3

end Sys2Proof
end

