-- ==== Sys2Proof/Config.lean ====
section
/-! DEFINITION. What the spec leaves to a model instance: the parameters of 00_scope.md R5 and R7, the port model's
`PORT_AUTOINC` (20_memory.md R55), the shape of the port's answers (R53, R54), and the body-less constants that stand
for all of them at reset. The record type of the numeric constants of R6 is here too; its values are in
Machine/Operands.lean. -/

namespace Sys2Proof

/-- Where a control field sits on the device: a device address and the bit position of the field's lowest bit (R7). -/
structure FieldLoc where
  addr : Byte
  shift : Nat
  deriving DecidableEq, Repr

/-- The three field locations of one channel; `none` is the spec's `ABSENT` (R7). -/
structure ChannelLocs where
  int : Option FieldLoc
  rdiv : Option FieldLoc
  div4 : Option FieldLoc
  deriving DecidableEq, Repr

/-- The parameters of a model instance (R5, R7, R55). They are fixed for the instance (R42): no step writes them. -/
structure Params where
  /-- FREQ_MULT: one frequency unit is 1/FREQ_MULT Hz (R5). -/
  freqMult : Nat
  /-- INT_LOC, RDIV_LOC and DIV4_LOC of channels 0 to 7 (R7). -/
  locs : Vector ChannelLocs 8
  /-- PORT_AUTOINC, read by no command (R55). -/
  portAutoinc : Bool
  deriving DecidableEq, Repr

/-- What the port answers to a read (R53). -/
inductive ReadAnswer where
  /-- The read succeeded and returned this byte. -/
  | ok (d : Byte)
  /-- The transaction failed, the source's TransportError. -/
  | fail
  deriving DecidableEq, Repr

/-- What the port answers to a write (R54). -/
inductive WriteAnswer where
  | ok
  | fail
  deriving DecidableEq, Repr

/-- The numeric constants of R6 as one configuration record (D29, U1). Frequencies are in Hz here and are multiplied by
FREQ_MULT where they are used (R5). -/
structure Constants where
  fracDenom : Nat
  pllAMin : Nat
  pllAMax : Nat
  ppbScale : Nat
  outMin : Nat
  outMax : Nat
  divBy4Min : Nat
  vcoMax : Nat
  vcoMin : Nat
  msAMin : Nat
  msAMax : Nat
  msAuxAMax : Nat
  rdivMin : Nat
  p1Width : Nat
  p2Width : Nat
  p3Width : Nat
  sharedThresh : Nat
  deriving DecidableEq, Repr

/-- The largest FREQ_MULT (R5): the largest value for which 900,000,000 times it fits in 64 bits. -/
def Config.maxFreqMult : Nat := 20496382304

/-- FREQ_MULT less one, a free value of the instance (R5, OPEN): any value that keeps FREQ_MULT in its range. -/
opaque Config.freqMultPred : Fin 20496382304

/-- INT_LOC, a free value of the instance (R7, OPEN): a 1-bit field starts at bit 0 to 7. -/
opaque Config.intLoc : Channel → Option (Byte × Fin 8)

/-- RDIV_LOC, a free value of the instance (R7, OPEN): a 3-bit field starts at bit 0 to 5. -/
opaque Config.rdivLoc : Channel → Option (Byte × Fin 6)

/-- DIV4_LOC, a free value of the instance (R7, OPEN): a 1-bit field starts at bit 0 to 7. -/
opaque Config.div4Loc : Channel → Option (Byte × Fin 8)

/-- PORT_AUTOINC, a free value of the instance (R55, OPEN). -/
opaque Config.portAutoinc : Bool

/-- The answers the port will give to reads from reset on, a free value (R8, R53, OPEN). -/
opaque Config.portReads : List ReadAnswer

/-- The answers the port will give to writes from reset on, a free value (R8, R54, OPEN). -/
opaque Config.portWrites : List WriteAnswer

/-- A free location as a plain `FieldLoc`. -/
def Config.loc {n : Nat} (l : Option (Byte × Fin n)) : Option FieldLoc :=
  l.map fun p => { addr := p.1, shift := p.2.val }

/-- The parameters of the instance that `State.reset` holds: free within the constraints of R5 and R7. -/
def Config.params : Params :=
  { freqMult := Config.freqMultPred.val + 1
    locs := Vector.ofFn fun i =>
      let ch : Channel := BitVec.ofFin i
      { int := Config.loc (Config.intLoc ch)
        rdiv := Config.loc (Config.rdivLoc ch)
        div4 := Config.loc (Config.div4Loc ch) }
    portAutoinc := Config.portAutoinc }

end Sys2Proof
end

