-- ==== Sys2Proof/Syntax.lean ====
section
/-! DEFINITION. The commands of FDPE: one constructor per row of spec/opcode_table.json, with the fields the operation
reads and no others (30_encoding.md R72, R73, R77). -/

namespace Sys2Proof

/-- The nine operations of R72. -/
inductive Instr where
  /-- NOP (R170). -/
  | nop
  /-- CORRECT_REF (R95). -/
  | correctRef
  /-- SOLVE (R91). -/
  | solve
  /-- PLAN_PLL (R101). -/
  | planPll
  /-- PLAN_MS with its AUX bit (R110). -/
  | planMs (aux : Bool)
  /-- SELECT_RDIV (R122). -/
  | selectRdiv
  /-- ENCODE_TRIPLE with its BASE byte (R141). -/
  | encodeTriple (base : Byte)
  /-- ENCODE_AUX with its BASE byte (R145). -/
  | encodeAux (base : Byte)
  /-- ENCODE_CTRL with its CH field (R150). -/
  | encodeCtrl (ch : Channel)
  deriving DecidableEq, Repr

end Sys2Proof
end

