-- ==== Sys2Proof/WellFormed.lean ====
section
/-! DEFINITION. What is checked before a value means anything: a command word is one of the nine operations
(30_encoding.md R74, R75), and the parameters of an instance meet the constraints of 00_scope.md R5 and R7. An `Instr`
needs no check of its own: each of its fields has exactly the width the command word gives it (R71), so every term of
`Instr` is well-formed. -/

namespace Sys2Proof

/-- R74: the reserved bits 31:16 of a command word are 0. -/
def reservedBitsClear (w : CmdWord) : Bool := w.extractLsb' 16 16 == 0#16

/-- R75: the OP field is one of the nine operations. -/
def opAssigned (w : CmdWord) : Bool := (w.extractLsb' 0 4).toNat ≤ 8

/-- R75: the word is exactly one of the nine operations; every other word is illegal. -/
def legalCommandWord (w : CmdWord) : Bool := reservedBitsClear w && opAssigned w

/-- R7: a present field of width `w` ends within its device register. -/
def fieldFits (w : Nat) : Option FieldLoc → Bool
  | none => true
  | some l => l.shift + w ≤ 8

/-- R7: the three fields of a channel fit; integer mode and divide-by-4 have width 1, the R-divider width 3. -/
def ChannelLocs.wf (c : ChannelLocs) : Bool :=
  fieldFits 1 c.int && fieldFits 3 c.rdiv && fieldFits 1 c.div4

/-- R5: FREQ_MULT is at least 1 and VCO_MAX times it fits in 64 bits. -/
def freqMultInRange (n : Nat) : Bool := 1 ≤ n && n ≤ Config.maxFreqMult

/-- R5, R7: the parameters are those of some model instance. -/
def Params.wf (p : Params) : Bool := freqMultInRange p.freqMult && p.locs.toList.all ChannelLocs.wf

end Sys2Proof
end

