-- ==== Sys2Proof/Decode.lean ====
section
/-! DEFINITION. Decoding a command word (30_encoding.md R78), total on every 32-bit word and rejecting by name, and the
encoder beside it, written from the field table R71 and the opcode map R72. -/

namespace Sys2Proof

/-- Why a word is no command. Both are the reserved command of R172 and raise ILLEGAL_CMD. -/
inductive DecodeError where
  /-- Bits 31:16 are not 0 (R74); reported whatever the OP field holds. -/
  | reservedBits
  /-- The OP field is 0x9 to 0xF (R75). -/
  | reservedOp
  deriving DecidableEq, Repr

/-- The OP field, bits 3:0 (R71). -/
def opField (w : CmdWord) : BitVec 4 := w.extractLsb' 0 4

/-- The AUX field, bit 4 (R71). -/
def auxField (w : CmdWord) : Bool := w.getLsbD 4

/-- The CH field, bits 7:5 (R71). -/
def chField (w : CmdWord) : Channel := w.extractLsb' 5 3

/-- The BASE field, bits 15:8 (R71). -/
def baseField (w : CmdWord) : Byte := w.extractLsb' 8 8

/-- The decoding procedure of R78. -/
def decode (w : CmdWord) : Except DecodeError Instr :=
  if reservedBitsClear w then
    match (opField w).toNat with
    | 0 => .ok .nop
    | 1 => .ok .correctRef
    | 2 => .ok .solve
    | 3 => .ok .planPll
    | 4 => .ok (.planMs (auxField w))
    | 5 => .ok .selectRdiv
    | 6 => .ok (.encodeTriple (baseField w))
    | 7 => .ok (.encodeAux (baseField w))
    | 8 => .ok (.encodeCtrl (chField w))
    | _ => .error .reservedOp
  else .error .reservedBits

/-- A command word from its fields: `rrrrrrrrrrrrrrrr BBBBBBBB CCC X OOOO` with the reserved bits 0 (R71). -/
def commandWord (op : BitVec 4) (aux : Bool) (ch : Channel) (base : Byte) : CmdWord :=
  base.setWidth 32 <<< 8 ||| ch.setWidth 32 <<< 5 ||| (BitVec.ofBool aux).setWidth 32 <<< 4 ||| op.setWidth 32

/-- The OP value of each operation (R72). -/
def opcode : Instr → BitVec 4
  | .nop => 0x0
  | .correctRef => 0x1
  | .solve => 0x2
  | .planPll => 0x3
  | .planMs _ => 0x4
  | .selectRdiv => 0x5
  | .encodeTriple _ => 0x6
  | .encodeAux _ => 0x7
  | .encodeCtrl _ => 0x8

/-- The encoder: the operation's OP, the fields it reads, and 0 in the fields it ignores, as `cmd` of R79 writes them. -/
def encode (i : Instr) : CmdWord :=
  match i with
  | .nop => commandWord (opcode i) false 0 0
  | .correctRef => commandWord (opcode i) false 0 0
  | .solve => commandWord (opcode i) false 0 0
  | .planPll => commandWord (opcode i) false 0 0
  | .planMs aux => commandWord (opcode i) aux 0 0
  | .selectRdiv => commandWord (opcode i) false 0 0
  | .encodeTriple base => commandWord (opcode i) false 0 base
  | .encodeAux base => commandWord (opcode i) false 0 base
  | .encodeCtrl ch => commandWord (opcode i) false ch 0

/-- The bits of a command word that matter to an operation: OP and the reserved bits (the mask 0xFFFF000F of R81) and
the fields it reads (R72). The others are ignored (R73). -/
def readMask : Instr → CmdWord
  | .nop | .correctRef | .solve | .planPll | .selectRdiv => 0xFFFF000F
  | .planMs _ => 0xFFFF001F
  | .encodeTriple _ | .encodeAux _ => 0xFFFFFF0F
  | .encodeCtrl _ => 0xFFFF00EF

/-- One row of spec/opcode_table.json: a word is this command iff `w &&& mask = pattern` (R81). -/
structure OpcodeRow where
  mnemonic : String
  pattern : CmdWord
  mask : CmdWord
  deriving DecidableEq, Repr

/-- The opcode table (R72, R81). -/
def opcodeTable : List OpcodeRow :=
  [ ⟨"NOP", 0x00000000, 0xFFFF000F⟩,
    ⟨"CORRECT_REF", 0x00000001, 0xFFFF000F⟩,
    ⟨"SOLVE", 0x00000002, 0xFFFF000F⟩,
    ⟨"PLAN_PLL", 0x00000003, 0xFFFF000F⟩,
    ⟨"PLAN_MS", 0x00000004, 0xFFFF000F⟩,
    ⟨"SELECT_RDIV", 0x00000005, 0xFFFF000F⟩,
    ⟨"ENCODE_TRIPLE", 0x00000006, 0xFFFF000F⟩,
    ⟨"ENCODE_AUX", 0x00000007, 0xFFFF000F⟩,
    ⟨"ENCODE_CTRL", 0x00000008, 0xFFFF000F⟩ ]

/-- The row selects the word (R81). -/
def OpcodeRow.selects (r : OpcodeRow) (w : CmdWord) : Bool := w &&& r.mask == r.pattern

/-- The mnemonic of each operation (R72). -/
def mnemonic : Instr → String
  | .nop => "NOP"
  | .correctRef => "CORRECT_REF"
  | .solve => "SOLVE"
  | .planPll => "PLAN_PLL"
  | .planMs _ => "PLAN_MS"
  | .selectRdiv => "SELECT_RDIV"
  | .encodeTriple _ => "ENCODE_TRIPLE"
  | .encodeAux _ => "ENCODE_AUX"
  | .encodeCtrl _ => "ENCODE_CTRL"

/-- The command word whose table bits are `w`, of `nbits` bits: the bits above are 0. A command is one 32-bit word and
the host writes it as a value, so no byte order enters (R57, R70). -/
def tableWord (nbits w : Nat) : CmdWord := BitVec.ofNat 32 (w % 2 ^ nbits)

/-- The instruction the decoder reads from an instruction whose bits are `w`. -/
def decodeTableWord (nbits w : Nat) : Option Instr := (decode (tableWord nbits w)).toOption

end Sys2Proof
end

