-- ==== Sys2Proof/Machine/State.lean ====
section
/-! DEFINITION. The state of FDPE as plain data: the register file of 10_state.md R21, and the model's own fields for
what stands outside the block (its parameters, the host's accesses and the port's answers still to come, the events so
far). Reset is 10_state.md R43. -/

namespace Sys2Proof.Machine

/-- The register file (R21): "the block's state is the register file below and nothing else". -/
structure Regs where
  /-- Last command word written (R25). -/
  cmd : BitVec 32
  /-- Result of the last command (R26). -/
  status : BitVec 16
  /-- Operand A (R28). -/
  opa : BitVec 64
  /-- Operand B (R29). -/
  opb : BitVec 64
  /-- Fractional denominator of SOLVE (R30). -/
  opf : BitVec 20
  /-- p1 to encode (R31). -/
  p1 : BitVec 18
  /-- p2 to encode (R31). -/
  p2 : BitVec 20
  /-- p3 to encode (R31). -/
  p3 : BitVec 20
  /-- Control flags to encode (R32). -/
  ctrl : BitVec 5
  /-- Nominal reference frequency (R33). -/
  refNom : BitVec 64
  /-- Reference correction, two's complement (R34). -/
  refPpb : BitVec 32
  /-- Corrected reference frequency (R35). -/
  refEff : BitVec 64
  /-- Result a (R36). -/
  resA : BitVec 64
  /-- Result b (R36). -/
  resB : BitVec 20
  /-- Result c (R36). -/
  resC : BitVec 20
  /-- Result frequency (R37). -/
  resFreq : BitVec 64
  /-- R-divider code (R38). -/
  resRdiv : BitVec 3
  deriving DecidableEq, Repr

/-- One thing the outside does to the block between commands. -/
inductive HostAccess where
  /-- `RegWrite(index, value)` (R22, R173); at the index of CMD it starts a command (R25). -/
  | write (index : Byte) (value : HostWord)
  /-- `RegRead(index)` (R23, R174). -/
  | read (index : Byte)
  /-- The platform's reset, which may occur only between commands (R202). -/
  | reset
  deriving DecidableEq, Repr

/-- One event of a run (R60, R61). -/
inductive Event where
  /-- A host write of this value to this index. -/
  | hostWrite (index : Byte) (value : HostWord)
  /-- A host read of this index and the value it returned. -/
  | hostRead (index : Byte) (value : HostWord)
  /-- A platform reset. -/
  | reset
  /-- A read transaction on the port and its answer; `none` when the port never answers (R53, R189). -/
  | portRead (addr : Byte) (answer : Option ReadAnswer)
  /-- A write transaction on the port, address byte and payload in order, and its answer; `none` when the port never
  answers (R54, R55, R189). -/
  | portWrite (addr : Byte) (payload : List Byte) (answer : Option WriteAnswer)
  deriving DecidableEq, Repr

/-- The port's answers still to come, one per transaction, each list in the order its transactions will take them
(R8, R53, R54). Where a list is empty the port never answers (R189). -/
structure Port where
  reads : List ReadAnswer
  writes : List WriteAnswer
  deriving DecidableEq, Repr

/-- The state of the machine. `regs` is the spec's; the other fields are the model's own. -/
structure State where
  /-- The register file (R21). -/
  regs : Regs
  /-- The parameters of the model instance (R5, R7, R42); no step writes them. -/
  params : Params
  /-- The host's accesses still to come, in program order (R20, R61). -/
  host : List HostAccess
  /-- The port's answers still to come. -/
  port : Port
  /-- The events so far, oldest first (R60, R61). -/
  events : List Event
  deriving DecidableEq, Repr

/-- Why the machine stops. -/
inductive Fault where
  /-- The block is stuck: its last port transaction, the last event of the state carried here, is never answered, so the
  command does not end, with no error code and no completion (R189). Raised by ENCODE_TRIPLE, ENCODE_AUX and ENCODE_CTRL.
  Safe: the block of the spec takes no further step there either. -/
  | portNeverAnswers (s : State)
  deriving DecidableEq, Repr

/-- Why an instruction has no meaning. -/
inductive Refusal where
  /-- An instruction of the opcode table not modelled yet; raised only by an arm of `exec` (none is left). Safe: the model
  says nothing of such an instruction. -/
  | notModelled (mnemonic : String)
  deriving DecidableEq, Repr

/-- Every register after reset (R43): all zero. -/
def Regs.reset : Regs :=
  { cmd := 0, status := 0, opa := 0, opb := 0, opf := 0, p1 := 0, p2 := 0, p3 := 0, ctrl := 0, refNom := 0, refPpb := 0,
    refEff := 0, resA := 0, resB := 0, resC := 0, resFreq := 0, resRdiv := 0 }

/-- The machine right after reset (R43, R200): every register 0, waiting for the first CMD write. The parameters and the
port's answers are the free values of Config; no host access is pending and no event has happened. -/
def State.reset : State :=
  { regs := Regs.reset
    params := Config.params
    host := []
    port := { reads := Config.portReads, writes := Config.portWrites }
    events := [] }

end Sys2Proof.Machine
end

