-- ==== Sys2Proof/Machine/Flags.lean ====
section
/-! DEFINITION. STATUS, its error codes and flags (10_state.md R26, R27, R39; 60_exceptions.md R181), and the fields of
CTRL (R32). -/

namespace Sys2Proof.Machine

/-- The error codes of R181. -/
inductive ErrCode where
  /-- The command completed. -/
  | ok
  /-- Reserved bits not zero or a reserved OP. -/
  | illegalCmd
  /-- A zero divisor in SOLVE, PLAN_PLL or PLL-fixed PLAN_MS. -/
  | zeroDivisor
  /-- The corrected reference is below 1 or above 2^64 - 1. -/
  | refRange
  /-- The realized VCO frequency is above 2^64 - 1. -/
  | overflow
  /-- P1 above 255 in ENCODE_AUX. -/
  | operandRange
  /-- A port transaction failed. -/
  | portError
  deriving DecidableEq, Repr

/-- The code written to STATUS.ERR (R181). -/
def errBits : ErrCode → BitVec 4
  | .ok => 0
  | .illegalCmd => 1
  | .zeroDivisor => 2
  | .refRange => 3
  | .overflow => 4
  | .operandRange => 5
  | .portError => 6

/-- The flags of a completed command (R39); a flag a command's rule does not name is 0 (R27). -/
structure Flags where
  clamped : Bool := false
  divBy4 : Bool := false
  intMode : Bool := false
  deriving DecidableEq, Repr

/-- STATUS as one word: ERR_ADDR 15:8, bit 7 reserved 0, INTMODE 6, DIVBY4 5, CLAMPED 4, ERR 3:0 (R26). -/
def statusWord (e : ErrCode) (f : Flags) (addr : Byte) : BitVec 16 :=
  addr.setWidth 16 <<< 8 ||| (BitVec.ofBool f.intMode).setWidth 16 <<< 6 ||| (BitVec.ofBool f.divBy4).setWidth 16 <<< 5 |||
    (BitVec.ofBool f.clamped).setWidth 16 <<< 4 ||| (errBits e).setWidth 16

/-- STATUS of a completed command: ERR = OK and ERR_ADDR = 0 (R27). -/
def okStatus (f : Flags) : BitVec 16 := statusWord .ok f 0

/-- STATUS of a command that ends with an error: every flag 0 (R27, R182). -/
def errStatus (e : ErrCode) (addr : Byte) : BitVec 16 := statusWord e {} addr

/-- STATUS.ERR, bits 3:0 (R26). -/
def statusErr (v : BitVec 16) : BitVec 4 := v.extractLsb' 0 4

/-- STATUS.CLAMPED, bit 4 (R26). -/
def statusClamped (v : BitVec 16) : Bool := v.getLsbD 4

/-- STATUS.DIVBY4, bit 5 (R26). -/
def statusDivBy4 (v : BitVec 16) : Bool := v.getLsbD 5

/-- STATUS.INTMODE, bit 6 (R26). -/
def statusIntMode (v : BitVec 16) : Bool := v.getLsbD 6

/-- STATUS bit 7, reserved (R26). -/
def statusReserved (v : BitVec 16) : Bool := v.getLsbD 7

/-- STATUS.ERR_ADDR, bits 15:8 (R26). -/
def statusErrAddr (v : BitVec 16) : Byte := v.extractLsb' 8 8

/-- CTRL.INTMODE, bit 0, as the 1-bit field value ENCODE_CTRL writes (R32). -/
def ctrlIntMode (v : BitVec 5) : Byte := (v.extractLsb' 0 1).setWidth 8

/-- CTRL.DIVBY4, bit 1 (R32). -/
def ctrlDivBy4 (v : BitVec 5) : Byte := (v.extractLsb' 1 1).setWidth 8

/-- CTRL.RDIV, bits 4:2 (R32). -/
def ctrlRdiv (v : BitVec 5) : Byte := (v.extractLsb' 2 3).setWidth 8

end Sys2Proof.Machine
end

