-- ==== Sys2Proof/Machine/Operands.lean ====
section
/-! DEFINITION. Where operands come from: the numeric constants of 00_scope.md R6 with their scaling (R5), the parameters
of a channel (R7), and the host's view of the register file (10_state.md R21 to R23). -/

namespace Sys2Proof.Machine

/-- The values of R6. -/
def constants : Constants :=
  { fracDenom := 1000000
    pllAMin := 24
    pllAMax := 36
    ppbScale := 1000000000
    outMin := 500000
    outMax := 225000000
    divBy4Min := 150000000
    vcoMax := 900000000
    vcoMin := 600000000
    msAMin := 6
    msAMax := 1800
    msAuxAMax := 254
    rdivMin := 4000
    p1Width := 18
    p2Width := 20
    p3Width := 20
    sharedThresh := 100000000 }

/-- A frequency constant in frequency units: multiplied by FREQ_MULT (R5). -/
def scaled (p : Params) (hz : Nat) : Nat := hz * p.freqMult

/-- OUT_MIN in fu. -/
def outMin (p : Params) : Nat := scaled p constants.outMin

/-- OUT_MAX in fu. -/
def outMax (p : Params) : Nat := scaled p constants.outMax

/-- DIVBY4_MIN in fu. -/
def divBy4Min (p : Params) : Nat := scaled p constants.divBy4Min

/-- VCO_MAX in fu. -/
def vcoMax (p : Params) : Nat := scaled p constants.vcoMax

/-- VCO_MIN in fu; no command reads it (R6, R103). -/
def vcoMin (p : Params) : Nat := scaled p constants.vcoMin

/-- RDIV_MIN in fu. -/
def rdivMin (p : Params) : Nat := scaled p constants.rdivMin

/-- SHARED_THRESH in fu; no command reads it (R6). -/
def sharedThresh (p : Params) : Nat := scaled p constants.sharedThresh

/-- The upper divider bound of PLAN_MS: MS_AUX_A_MAX when AUX = 1, else MS_A_MAX (R77, R113). -/
def msAMaxFor (aux : Bool) : Nat := if aux then constants.msAuxAMax else constants.msAMax

/-- INT_LOC, RDIV_LOC and DIV4_LOC of a channel (R7, R77). -/
def channelLocs (p : Params) (ch : Channel) : ChannelLocs := p.locs[ch.toNat]'(by have := ch.isLt; omega)

/-- The registers of R21 by name. -/
inductive RegName where
  | cmd | status | opa | opb | opf | p1 | p2 | p3 | ctrl | refNom | refPpb | refEff | resA | resB | resC | resFreq | resRdiv
  deriving DecidableEq, Repr

/-- The host register index of each register (R21). -/
def regIndex : RegName → Byte
  | .cmd => 0x00
  | .status => 0x01
  | .opa => 0x02
  | .opb => 0x03
  | .opf => 0x04
  | .p1 => 0x05
  | .p2 => 0x06
  | .p3 => 0x07
  | .ctrl => 0x08
  | .refNom => 0x09
  | .refPpb => 0x0A
  | .refEff => 0x0B
  | .resA => 0x0C
  | .resB => 0x0D
  | .resC => 0x0E
  | .resFreq => 0x0F
  | .resRdiv => 0x10

/-- The register an index names; 0x11 to 0xFF are reserved and name none (R21, R50). -/
def regAt (i : Byte) : Option RegName :=
  match i.toNat with
  | 0 => some .cmd
  | 1 => some .status
  | 2 => some .opa
  | 3 => some .opb
  | 4 => some .opf
  | 5 => some .p1
  | 6 => some .p2
  | 7 => some .p3
  | 8 => some .ctrl
  | 9 => some .refNom
  | 10 => some .refPpb
  | 11 => some .refEff
  | 12 => some .resA
  | 13 => some .resB
  | 14 => some .resC
  | 15 => some .resFreq
  | 16 => some .resRdiv
  | _ => none

/-- The 64-bit value a host read of a register returns (R23): zero-extended, but REF_PPB sign-extended. -/
def readReg (r : Regs) : RegName → HostWord
  | .cmd => r.cmd.setWidth 64
  | .status => r.status.setWidth 64
  | .opa => r.opa
  | .opb => r.opb
  | .opf => r.opf.setWidth 64
  | .p1 => r.p1.setWidth 64
  | .p2 => r.p2.setWidth 64
  | .p3 => r.p3.setWidth 64
  | .ctrl => r.ctrl.setWidth 64
  | .refNom => r.refNom
  | .refPpb => r.refPpb.signExtend 64
  | .refEff => r.refEff
  | .resA => r.resA
  | .resB => r.resB.setWidth 64
  | .resC => r.resC.setWidth 64
  | .resFreq => r.resFreq
  | .resRdiv => r.resRdiv.setWidth 64

/-- `RegRead(i)` (R23, R174): a reserved index returns 0. -/
def regRead (r : Regs) (i : Byte) : HostWord :=
  match regAt i with
  | some n => readReg r n
  | none => 0

/-- What a host write stores (R22): an RW register takes the value truncated to its width, CMD its low 32 bits, and an RO
register ignores the write. -/
def writeReg (r : Regs) (n : RegName) (v : HostWord) : Regs :=
  match n with
  | .cmd => { r with cmd := v.setWidth 32 }
  | .opa => { r with opa := v }
  | .opb => { r with opb := v }
  | .opf => { r with opf := v.setWidth 20 }
  | .p1 => { r with p1 := v.setWidth 18 }
  | .p2 => { r with p2 := v.setWidth 20 }
  | .p3 => { r with p3 := v.setWidth 20 }
  | .ctrl => { r with ctrl := v.setWidth 5 }
  | .refNom => { r with refNom := v }
  | .refPpb => { r with refPpb := v.setWidth 32 }
  | .status | .refEff | .resA | .resB | .resC | .resFreq | .resRdiv => r

/-- The register file after the storing part of `RegWrite(i, v)` (R22): a reserved index is ignored. -/
def regStore (r : Regs) (i : Byte) (v : HostWord) : Regs :=
  match regAt i with
  | some n => writeReg r n v
  | none => r

end Sys2Proof.Machine
end

