-- ==== Sys2Proof/Machine/Ops.lean ====
section
/-! DEFINITION. The operations the commands share: register updates, ending a command with success or with an error
(60_exceptions.md R180 to R183), the fixed-point divider (40_divider.md R90), and the port transactions with the field
merge (20_memory.md R53, R54; 41_encoder.md R151). The block has no trap entry and no return from one (R187, R188):
reporting an error in STATUS is all that `raise` does. -/

namespace Sys2Proof.Machine

/-! ### Updates of the state -/

/-- `x[CMD] <- w`. -/
def setCmd (s : State) (w : CmdWord) : State := { s with regs := { s.regs with cmd := w } }

/-- `STATUS <- v`. -/
def setStatus (s : State) (v : BitVec 16) : State := { s with regs := { s.regs with status := v } }

/-- `x[REF_EFF] <- v`. -/
def setRefEff (s : State) (v : BitVec 64) : State := { s with regs := { s.regs with refEff := v } }

/-- `x[RES_A] <- a; x[RES_B] <- b; x[RES_C] <- c`, always together (R36). -/
def setTriple (s : State) (a : BitVec 64) (b c : BitVec 20) : State :=
  { s with regs := { s.regs with resA := a, resB := b, resC := c } }

/-- `x[RES_FREQ] <- v`. -/
def setResFreq (s : State) (v : BitVec 64) : State := { s with regs := { s.regs with resFreq := v } }

/-- `x[RES_RDIV] <- v`. -/
def setResRdiv (s : State) (v : BitVec 3) : State := { s with regs := { s.regs with resRdiv := v } }

/-- The whole register file replaced, by a host write (R22) or a reset (R43). -/
def setRegs (s : State) (r : Regs) : State := { s with regs := r }

/-- The event happens, after every earlier one (R61). -/
def record (s : State) (e : Event) : State := { s with events := s.events ++ [e] }

/-- The host's accesses still to come. -/
def setHost (s : State) (h : List HostAccess) : State := { s with host := h }

/-- The port's answers still to come. -/
def setPort (s : State) (p : Port) : State := { s with port := p }

/-! ### Ending a command -/

/-- The command completed: all of STATUS is rewritten, ERR = OK (R27). -/
def complete (f : Flags) (s : State) : State := setStatus s (okStatus f)

/-- `raise E(info)`: STATUS is written with the code, no flag, and the address or 0; nothing else is (R12, R182). -/
def raise (e : ErrCode) (addr : Byte) (s : State) : State := setStatus s (errStatus e addr)

/-! ### Arithmetic -/

/-- `clamp(v, lo, hi)` of R11. -/
def clamp (v lo hi : Nat) : Nat := if v < lo then lo else if hi < v then hi else v

/-- A divider triple `(a, b, c)`, standing for the ratio `a + b/c` (R13). -/
structure Triple where
  a : Nat
  b : Nat
  c : Nat
  deriving DecidableEq, Repr

/-- The fraction part of `fpd`: numerator and denominator for `n / d` with denominator `f` (R90). -/
def fpdFraction (n d f : Nat) : Nat × Nat :=
  let b := (n % d * f) / d
  (b, if b ≠ 0 then f else 1)

/-- The fixed-point divider `fpd(n, d, f)`, used only where `d > 0` (R90). -/
def fpd (n d f : Nat) : Triple :=
  { a := n / d, b := (fpdFraction n d f).1, c := (fpdFraction n d f).2 }

/-- A triple into RES_A, RES_B and RES_C; every triple the commands write fits them (R91, R124). -/
def writeTriple (s : State) (t : Triple) : State :=
  setTriple s (BitVec.ofNat 64 t.a) (BitVec.ofNat 20 t.b) (BitVec.ofNat 20 t.c)

/-! ### Port transactions -/

/-- How a sequence of port transactions ends: done with a value, ended by the first failed transaction at this address
(R153), or never answered (R189). The state carries the transactions issued so far. -/
inductive PortResult (α : Type) where
  | done (v : α) (s : State)
  | failed (addr : Byte) (s : State)
  | unanswered (s : State)
  deriving DecidableEq, Repr

/-- One transaction after another, each complete before the next is issued (R61). -/
def andThen {α β : Type} (r : PortResult α) (k : α → State → PortResult β) : PortResult β :=
  match r with
  | .done v s => k v s
  | .failed addr s => .failed addr s
  | .unanswered s => .unanswered s

/-- `MemRead(addr, 1)` (R53): the port's next answer to a read, a byte or a failure. -/
def memRead (addr : Byte) (s : State) : PortResult Byte :=
  match s.port.reads with
  | [] => .unanswered (record s (.portRead addr none))
  | .ok d :: rest =>
    .done d (record (setPort s { s.port with reads := rest }) (.portRead addr (some (.ok d))))
  | .fail :: rest =>
    .failed addr (record (setPort s { s.port with reads := rest }) (.portRead addr (some .fail)))

/-- `MemWrite(addr, n, payload)` (R54): one transaction, the address byte and then the payload bytes in order. -/
def memWrite (addr : Byte) (payload : List Byte) (s : State) : PortResult Unit :=
  match s.port.writes with
  | [] => .unanswered (record s (.portWrite addr payload none))
  | .ok :: rest =>
    .done () (record (setPort s { s.port with writes := rest }) (.portWrite addr payload (some .ok)))
  | .fail :: rest =>
    .failed addr (record (setPort s { s.port with writes := rest }) (.portWrite addr payload (some .fail)))

/-- The mask of a field of width `w` at bit `sh` (R151). -/
def fieldMask (w sh : Nat) : Byte := BitVec.ofNat 8 ((2 ^ w - 1) <<< sh)

/-- The merge of one field (R151): `(old & ~mask) | ((v << sh) & mask)`. -/
def mergeField (old : Byte) (w sh : Nat) (v : Byte) : Byte :=
  (old &&& ~~~(fieldMask w sh)) ||| ((v <<< sh) &&& fieldMask w sh)

/-- The read-modify-write of one control field; an ABSENT field issues no transaction (R150, R152). -/
def updateField (loc : Option FieldLoc) (w : Nat) (v : Byte) (s : State) : PortResult Unit :=
  match loc with
  | none => .done () s
  | some l => andThen (memRead l.addr s) fun old s' => memWrite l.addr [mergeField old w l.shift v] s'

/-- The end of an encoder command: success with every flag 0, PORT_ERROR with the address of the first failed transaction
(R182, R184), or stuck (R189). -/
def endPortCommand (r : PortResult Unit) : Host.Outcome State Fault Refusal :=
  match r with
  | .done _ s => .next (complete {} s)
  | .failed addr s => .next (raise .portError addr s)
  | .unanswered s => .fault (.portNeverAnswers s)

end Sys2Proof.Machine
end

