-- ==== Sys2Proof/Machine/Divider.lean ====
section
/-! DEFINITION. The fixed-point divider family (40_divider.md): SOLVE, CORRECT_REF, PLAN_PLL, PLAN_MS and SELECT_RDIV. -/

namespace Sys2Proof.Machine

/-! ### SOLVE -/

/-- SOLVE (R91): `fpd` on OPA, OPB and OPF. -/
def execSolve (s : State) : Host.Outcome State Fault Refusal :=
  let d := s.regs.opb.toNat
  if d = 0 then .next (raise .zeroDivisor 0 s)
  else
    let t := fpd s.regs.opa.toNat d s.regs.opf.toNat
    .next (complete { intMode := t.b == 0 } (writeTriple s t))

/-! ### CORRECT_REF -/

/-- The corrected reference `nom + tdiv(ppb * nom, PPB_SCALE)`, exact and truncated toward zero (R95, R96). -/
def correctedRef (nom : Nat) (ppb : Int) : Int := nom + Int.tdiv (ppb * nom) constants.ppbScale

/-- The corrected value fits REF_EFF: it is at least 1 and at most 2^64 - 1 (R95). -/
def refInRange (e : Int) : Bool := 1 ≤ e && e ≤ 2 ^ 64 - 1

/-- CORRECT_REF (R95): REF_EFF from REF_NOM and REF_PPB, never from REF_EFF (R97). -/
def execCorrectRef (s : State) : Host.Outcome State Fault Refusal :=
  let e := correctedRef s.regs.refNom.toNat s.regs.refPpb.toInt
  if refInRange e then .next (complete {} (setRefEff s (BitVec.ofInt 64 e)))
  else .next (raise .refRange 0 s)

/-! ### PLAN_PLL -/

/-- What PLAN_PLL computes: the triple, the realized VCO frequency and whether the integer part was clamped. -/
structure PllPlan where
  triple : Triple
  vco : Nat
  clamped : Bool
  deriving DecidableEq, Repr

/-- The exact `ref × (a + b/c)` truncated to an integer frequency (R104). -/
def realizedVco (ref : Nat) (t : Triple) : Nat := (ref * (t.a * t.c + t.b)) / t.c

/-- The target after the clamp of the integer part (R100): `ref` times the nearer bound, or the target itself. -/
def pllTarget (ref t : Nat) : Nat :=
  if t / ref < constants.pllAMin then ref * constants.pllAMin
  else if constants.pllAMax < t / ref then ref * constants.pllAMax
  else t

/-- The PLL feedback plan for a reference `ref > 0` and a target `t` (R100, R101, R104). -/
def planPll (ref t : Nat) : PllPlan :=
  let a := clamp (t / ref) constants.pllAMin constants.pllAMax
  let frac := fpdFraction (pllTarget ref t) ref constants.fracDenom
  let triple : Triple := { a := a, b := frac.1, c := frac.2 }
  { triple := triple
    vco := realizedVco ref triple
    clamped := t / ref < constants.pllAMin || constants.pllAMax < t / ref }

/-- PLAN_PLL (R101): REF_EFF = 0 is ZERO_DIVISOR, a realized frequency above 2^64 - 1 is OVERFLOW (R184). -/
def execPlanPll (s : State) : Host.Outcome State Fault Refusal :=
  let ref := s.regs.refEff.toNat
  if ref = 0 then .next (raise .zeroDivisor 0 s)
  else
    let plan := planPll ref s.regs.opa.toNat
    if 2 ^ 64 - 1 < plan.vco then .next (raise .overflow 0 s)
    else
      .next (complete { clamped := plan.clamped, intMode := plan.triple.b == 0 }
        (setResFreq (writeTriple s plan.triple) (BitVec.ofNat 64 plan.vco)))

/-! ### PLAN_MS -/

/-- What PLAN_MS computes: the triple, the PLL frequency it returns, and its flags. -/
structure MsPlan where
  triple : Triple
  pll : Nat
  clamped : Bool
  divBy4 : Bool
  deriving DecidableEq, Repr

/-- A divider of exactly 5 or 7 is forced to 4 or 6 (R112). -/
def forceDivider (a : Nat) : Nat := if a = 5 then 4 else if a = 7 then 6 else a

/-- The divider of PLL-not-yet-fixed mode: the largest `a` with `a × f ≤ VCO_MAX`, then forced (R112). -/
def freeDivider (p : Params) (f : Nat) : Nat := forceDivider (vcoMax p / f)

/-- The triple of PLL-fixed mode, or none where the re-derived target `f'` is 0 (R113). -/
def fixedTriple (pll f : Nat) (aux : Bool) : Option Triple :=
  let a0 := pll / f
  let a := clamp a0 constants.msAMin (msAMaxFor aux)
  let f' := if a0 = a then f else pll / a
  if f' = 0 then none
  else
    let frac := fpdFraction pll f' constants.fracDenom
    some { a := a, b := frac.1, c := frac.2 }

/-- The divide-by-4 override (R114). -/
def overrideBy4 (d4 : Bool) (t : Triple) : Triple := if d4 then { a := 0, b := 0, c := 1 } else t

/-- The output divider plan for a target `t`, a PLL frequency `pll` (0 selects PLL-not-yet-fixed mode) and AUX; none where
PLAN_MS raises ZERO_DIVISOR (R110 to R114, R119). -/
def planMs (p : Params) (t pll : Nat) (aux : Bool) : Option MsPlan :=
  let f := clamp t (outMin p) (outMax p)
  let cl := f != t
  let d4 : Bool := divBy4Min p ≤ f
  if pll = 0 then
    let a := freeDivider p f
    some { triple := overrideBy4 d4 { a := a, b := 0, c := 1 }, pll := a * f, clamped := cl, divBy4 := d4 }
  else
    let a0 := pll / f
    match fixedTriple pll f aux with
    | none => none
    | some tr =>
      some { triple := overrideBy4 d4 tr
             pll := pll
             clamped := cl || a0 < constants.msAMin || msAMaxFor aux < a0
             divBy4 := d4 }

/-- PLAN_MS (R110): ZERO_DIVISOR where the plan has a zero target, else the triple, RES_FREQ and the three flags. -/
def execPlanMs (aux : Bool) (s : State) : Host.Outcome State Fault Refusal :=
  match planMs s.params s.regs.opa.toNat s.regs.opb.toNat aux with
  | none => .next (raise .zeroDivisor 0 s)
  | some plan =>
    .next (complete { clamped := plan.clamped, divBy4 := plan.divBy4, intMode := plan.triple.b == 0 }
      (setResFreq (writeTriple s plan.triple) (BitVec.ofNat 64 plan.pll)))

/-! ### SELECT_RDIV -/

/-- Code and scaled frequency of the R-divider for `f`: the windows `[RDIV_MIN·2^k, RDIV_MIN·2^(k+1))`, `k` from 0 to 6, and
divider 1 outside them (R120, R121, R122). -/
def rdivFor (rmin f : Nat) : Nat × Nat :=
  (List.range 7).foldl
    (fun acc k => if rmin * 2 ^ k ≤ f ∧ f < rmin * 2 ^ (k + 1) then (7 - k, f * 2 ^ (7 - k)) else acc)
    (0, f)

/-- SELECT_RDIV (R122): RES_RDIV and RES_FREQ from OPA. -/
def execSelectRdiv (s : State) : Host.Outcome State Fault Refusal :=
  let r := rdivFor (rdivMin s.params) s.regs.opa.toNat
  .next (complete {} (setResFreq (setResRdiv s (BitVec.ofNat 3 r.1)) (BitVec.ofNat 64 r.2)))

end Sys2Proof.Machine
end

