-- ==== Sys2Proof/Machine/Encoder.lean ====
section
/-! DEFINITION. The frequency-parameter encoder family (41_encoder.md): ENCODE_TRIPLE, ENCODE_AUX and ENCODE_CTRL, the
inverse of the parameter block for tests (R143), and where payload bytes land under PORT_AUTOINC (20_memory.md R55). -/

namespace Sys2Proof.Machine

/-- The 8 payload bytes of a parameter block (R141, R142): bytes 1 to 8 of its layout. -/
def parameterBlock (p1 : BitVec 18) (p2 p3 : BitVec 20) : List Byte :=
  [ p3.extractLsb' 8 8,
    p3.extractLsb' 0 8,
    (p1.extractLsb' 16 2).setWidth 8,
    p1.extractLsb' 8 8,
    p1.extractLsb' 0 8,
    (p3.extractLsb' 16 4).setWidth 8 <<< 4 ||| (p2.extractLsb' 16 4).setWidth 8,
    p2.extractLsb' 8 8,
    p2.extractLsb' 0 8 ]

/-- The nine bytes ENCODE_TRIPLE puts on the port, byte 0 being the address byte (R54, R141). -/
def encode9 (base : Byte) (p1 : BitVec 18) (p2 p3 : BitVec 20) : List Byte := base :: parameterBlock p1 p2 p3

/-- What a decode of nine bytes gives (R143). -/
structure Block where
  base : Byte
  p1 : BitVec 18
  p2 : BitVec 20
  p3 : BitVec 20
  deriving DecidableEq, Repr

/-- `decode9` of R143, for tests: the block has no decode command. Other than nine bytes is no parameter block. -/
def decode9 (y : List Byte) : Option Block :=
  match y with
  | [y0, y1, y2, y3, y4, y5, y6, y7, y8] =>
    some { base := y0
           p1 := (y3.extractLsb' 0 2).setWidth 18 <<< 16 ||| y4.setWidth 18 <<< 8 ||| y5.setWidth 18
           p2 := (y6.extractLsb' 0 4).setWidth 20 <<< 16 ||| y7.setWidth 20 <<< 8 ||| y8.setWidth 20
           p3 := (y6.extractLsb' 4 4).setWidth 20 <<< 16 ||| y1.setWidth 20 <<< 8 ||| y2.setWidth 20 }
  | _ => none

/-- ENCODE_TRIPLE (R141): the whole block in one transaction; P1, P2 and P3 are packed without a check (R144). -/
def execEncodeTriple (base : Byte) (s : State) : Host.Outcome State Fault Refusal :=
  endPortCommand (memWrite base (parameterBlock s.regs.p1 s.regs.p2 s.regs.p3) s)

/-- ENCODE_AUX (R145): one byte, p1[7:0]; P1 above 255 is OPERAND_RANGE before any transaction. -/
def execEncodeAux (base : Byte) (s : State) : Host.Outcome State Fault Refusal :=
  if 255 < s.regs.p1.toNat then .next (raise .operandRange 0 s)
  else endPortCommand (memWrite base [s.regs.p1.extractLsb' 0 8] s)

/-- The three read-modify-writes of ENCODE_CTRL: integer mode, then the R-divider, then divide-by-4, never merged, ended by
the first failure (R150, R152, R153). -/
def updateControlFields (l : ChannelLocs) (ctrl : BitVec 5) (s : State) : PortResult Unit :=
  andThen (updateField l.int 1 (ctrlIntMode ctrl) s) fun _ s1 =>
    andThen (updateField l.rdiv 3 (ctrlRdiv ctrl) s1) fun _ s2 =>
      updateField l.div4 1 (ctrlDivBy4 ctrl) s2

/-- ENCODE_CTRL (R150). -/
def execEncodeCtrl (ch : Channel) (s : State) : Host.Outcome State Fault Refusal :=
  endPortCommand (updateControlFields (channelLocs s.params ch) s.regs.ctrl s)

/-- The device address payload byte number `i` (counted from 0) of a write at `addr` lands at, where the spec says: with
PORT_AUTOINC, `addr + i`, up to 0xFF. None where the spec says nothing (R55). No command reads it; the hazard of R206 is
stated with it. -/
def landingAddr (p : Params) (addr : Byte) (i : Nat) : Option Byte :=
  if p.portAutoinc && addr.toNat + i ≤ 0xFF then some (BitVec.ofNat 8 (addr.toNat + i)) else none

end Sys2Proof.Machine
end

