-- ==== Sys2Proof/Machine/System.lean ====
section
/-! DEFINITION. The commands that compute nothing (42_system.md): NOP, and the reserved command. -/

namespace Sys2Proof.Machine

/-- NOP (R170): report success; it clears an earlier command's STATUS. -/
def execNop (s : State) : Host.Outcome State Fault Refusal := .next (complete {} s)

/-- The reserved command (R172): ILLEGAL_CMD, with no operand read and no transaction issued. -/
def execReserved (s : State) : Host.Outcome State Fault Refusal := .next (raise .illegalCmd 0 s)

end Sys2Proof.Machine
end

