-- ==== Sys2Proof/Machine/Dispatch.lean ====
section
/-! DEFINITION. One arm per command. -/

namespace Sys2Proof.Machine

def exec (i : Instr) (s : State) : Host.Outcome State Fault Refusal :=
  match i with
  | .nop => Sys2Proof.Machine.execNop s
  | .correctRef => Sys2Proof.Machine.execCorrectRef s
  | .solve => Sys2Proof.Machine.execSolve s
  | .planPll => Sys2Proof.Machine.execPlanPll s
  | .planMs aux => Sys2Proof.Machine.execPlanMs aux s
  | .selectRdiv => Sys2Proof.Machine.execSelectRdiv s
  | .encodeTriple base => Sys2Proof.Machine.execEncodeTriple base s
  | .encodeAux base => Sys2Proof.Machine.execEncodeAux base s
  | .encodeCtrl ch => Sys2Proof.Machine.execEncodeCtrl ch s

end Sys2Proof.Machine
end

