-- ==== Sys2Proof/Machine/Access.lean ====
section
/-! DEFINITION. What one access from outside does: a host write, which at CMD runs a command (10_state.md R22, R25), a host
read (R23), and the platform's reset (70_reset_and_hazards.md R200 to R202). -/

namespace Sys2Proof.Machine

/-- The command a stored word encodes, or the reserved command (R25, R75, R78, R172). -/
def execWord (w : CmdWord) (s : State) : Host.Outcome State Fault Refusal :=
  match decode w with
  | .ok i => exec i s
  | .error _ => execReserved s

/-- The state in which a host write has stored its value and no command has run yet (R22, R25). -/
def storeHostWrite (i : Byte) (v : HostWord) (s : State) : State :=
  record (setRegs s (regStore s.regs i v)) (.hostWrite i v)

/-- `RegWrite(i, v)` (R22, R173): the value is stored; a write to CMD then runs the stored word to completion (R25). -/
def hostWrite (i : Byte) (v : HostWord) (s : State) : Host.Outcome State Fault Refusal :=
  let s' := storeHostWrite i v s
  if i = regIndex .cmd then execWord s'.regs.cmd s' else .next s'

/-- `RegRead(i)` (R23, R174): changes no register; the value returned stands in the event. -/
def hostRead (i : Byte) (s : State) : State := record s (.hostRead i (regRead s.regs i))

/-- The platform's reset (R43, R200, R201): every register 0, nothing outside the block changed, no transaction. -/
def platformReset (s : State) : State := record (setRegs s Regs.reset) .reset

/-- One access from outside. -/
def perform (a : HostAccess) (s : State) : Host.Outcome State Fault Refusal :=
  match a with
  | .write i v => hostWrite i v s
  | .read i => .next (hostRead i s)
  | .reset => .next (platformReset s)

/-- The host's next access, or none pending, where the block waits (R20, R200). -/
def hostStep (s : State) : Host.Outcome State Fault Refusal :=
  match s.host with
  | [] => .next s
  | a :: rest => perform a (setHost s rest)

end Sys2Proof.Machine
end

