-- ==== Sys2Proof/Machine/Step.lean ====
section
/-! DEFINITION. One step of the machine: the host's next access, with the whole command where it is a CMD write
(10_state.md R20, R25; 70_reset_and_hazards.md R213). -/

namespace Sys2Proof.Machine

/-- One step (R61): the next access of the host's program, run to its end. -/
def step (s : State) : Host.Outcome State Fault Refusal := hostStep s

/-- `s` with a host write of the command word to CMD put before the host's other accesses, so that the next step runs it. -/
def State.withFetchWord (s : State) (nbits w : Nat) : State :=
  setHost s (.write (regIndex .cmd) ((tableWord nbits w).setWidth 64) :: s.host)

end Sys2Proof.Machine
end

