-- ==== Sys2Proof/Machine/Program.lean ====
section
/-! DEFINITION. The assembler statements of the host's programs and the pseudo-instructions (30_encoding.md R79, R80), as the
host accesses they stand for. The block itself never sees them (R20). -/

namespace Sys2Proof.Machine

/-- One statement of a host program (R79), or a pseudo-instruction (R80). -/
inductive HostStmt where
  /-- `wr NAME, value`. -/
  | wr (index : Byte) (value : HostWord)
  /-- `rd NAME`. -/
  | rd (index : Byte)
  /-- `cmd MNEMONIC [aux] [ch=N] [base=N]`. -/
  | cmd (i : Instr)
  /-- `expect NAME == value`: an assertion of the program's text, no access. -/
  | expect (index : Byte) (value : HostWord)
  /-- `mv SRC -> DST`. -/
  | mv (src dst : Byte)
  /-- `ldtriple`. -/
  | ldtriple
  /-- `ldctrl`. -/
  | ldctrl
  /-- `setref NOM, PPB`. -/
  | setref (nom ppb : HostWord)
  deriving DecidableEq, Repr

/-- The host write of an operation's command word to CMD (R79). -/
def cmdAccess (i : Instr) : HostAccess := .write (regIndex .cmd) ((encode i).setWidth 64)

/-- `mv SRC -> DST` (R80): a read, then a write of the value that read returns. -/
def moveAccesses (r : Regs) (src dst : RegName) : List HostAccess :=
  [.read (regIndex src), .write (regIndex dst) (readReg r src)]

/-- The value `ldctrl` writes to CTRL from STATUS and RES_RDIV (R80): `s[6] | (s[5] << 1) | (r << 2)`. -/
def ldctrlValue (status rdiv : HostWord) : HostWord :=
  (status.extractLsb' 6 1).setWidth 64 ||| ((status.extractLsb' 5 1).setWidth 64 <<< 1) ||| (rdiv <<< 2)

/-- The accesses of a statement begun on the register file `r` (R79, R80). A read changes no register and no statement
reads what it writes, so every value is that of the statement's begin. -/
def stmtAccesses (r : Regs) : HostStmt → List HostAccess
  | .wr i v => [.write i v]
  | .rd i => [.read i]
  | .cmd i => [cmdAccess i]
  | .expect _ _ => []
  | .mv src dst => [.read src, .write dst (regRead r src)]
  | .ldtriple => moveAccesses r .resA .p1 ++ moveAccesses r .resB .p2 ++ moveAccesses r .resC .p3
  | .ldctrl =>
    [ .read (regIndex .status), .read (regIndex .resRdiv),
      .write (regIndex .ctrl) (ldctrlValue (readReg r .status) (readReg r .resRdiv)) ]
  | .setref nom ppb =>
    [.write (regIndex .refNom) nom, .write (regIndex .refPpb) ppb, cmdAccess .correctRef]

/-- Accesses one after another, up to the first that does not answer a next state (R61). -/
def performAll : List HostAccess → State → Host.Outcome State Fault Refusal
  | [], s => .next s
  | a :: rest, s =>
    match perform a s with
    | .next s' => performAll rest s'
    | .fault r => .fault r
    | .refused r => .refused r

/-- One statement of a host program. -/
def runStmt (t : HostStmt) (s : State) : Host.Outcome State Fault Refusal := performAll (stmtAccesses s.regs t) s

end Sys2Proof.Machine
end

