-- ==== Sys2Proof/Safety.lean ====
section
/-! DEFINITION. What counts as a good run, in the terms the statements use: the invariant of a state, a command that ended,
and a machine that waits. -/

namespace Sys2Proof.Machine

/-- The STATUS values a command or reset can leave: an error code of R181, flags only with ERR = OK (R27), ERR_ADDR only
with PORT_ERROR (R26, R181), the reserved bit 0 (R26). -/
def statusLegal (v : BitVec 16) : Bool :=
  (statusErr v).toNat ≤ 6 &&
  !statusReserved v &&
  (statusErr v == 0 || (!statusClamped v && !statusDivBy4 v && !statusIntMode v)) &&
  (statusErr v == errBits .portError || statusErrAddr v == 0)

/-- The invariant of a state: the instance's parameters meet their constraints (R5, R7) and STATUS is legal. -/
def Inv (s : State) : Prop := s.params.wf = true ∧ statusLegal s.regs.status = true

/-- The event is a port transaction (R60). -/
def isPortEvent (e : Event) : Bool :=
  match e with
  | .portRead _ _ => true
  | .portWrite _ _ _ => true
  | .hostWrite _ _ => false
  | .hostRead _ _ => false
  | .reset => false

/-- The transaction of an event was issued and never answered (R189). -/
def neverAnswered (e : Event) : Bool :=
  match e with
  | .portRead _ none => true
  | .portWrite _ _ none => true
  | .portRead _ (some _) => false
  | .portWrite _ _ (some _) => false
  | .hostWrite _ _ => false
  | .hostRead _ _ => false
  | .reset => false

/-- The port failed the transaction of an event at this address (R181, R184). -/
def failedAt (e : Event) (addr : Byte) : Prop :=
  e = .portRead addr (some .fail) ∨ ∃ payload, e = .portWrite addr payload (some .fail)

/-- The transaction of an event succeeded (R53, R54). -/
def succeeded (e : Event) : Prop :=
  (∃ addr d, e = .portRead addr (some (.ok d))) ∨ ∃ addr payload, e = .portWrite addr payload (some .ok)

/-- The event with which a host access enters the order of events (R61); a read shows the value it returns. -/
def accessEvent (r : Regs) : HostAccess → Event
  | .write i v => .hostWrite i v
  | .read i => .hostRead i (regRead r i)
  | .reset => .reset

/-- The registers a command reads (the table of R76). -/
def readsRegs : Instr → List RegName
  | .nop => []
  | .correctRef => [.refNom, .refPpb]
  | .solve => [.opa, .opb, .opf]
  | .planPll => [.opa, .refEff]
  | .planMs _ => [.opa, .opb]
  | .selectRdiv => [.opa]
  | .encodeTriple _ => [.p1, .p2, .p3]
  | .encodeAux _ => [.p1]
  | .encodeCtrl _ => [.ctrl]

/-- The registers a command writes (the table of R76). -/
def writesRegs : Instr → List RegName
  | .nop => [.status]
  | .correctRef => [.refEff, .status]
  | .solve => [.resA, .resB, .resC, .status]
  | .planPll => [.resA, .resB, .resC, .resFreq, .status]
  | .planMs _ => [.resA, .resB, .resC, .resFreq, .status]
  | .selectRdiv => [.resRdiv, .resFreq, .status]
  | .encodeTriple _ => [.status]
  | .encodeAux _ => [.status]
  | .encodeCtrl _ => [.status]

/-- The command issues port transactions (the table of R76): the encoder family. -/
def usesPort : Instr → Bool
  | .encodeTriple _ => true
  | .encodeAux _ => true
  | .encodeCtrl _ => true
  | .nop => false
  | .correctRef => false
  | .solve => false
  | .planPll => false
  | .planMs _ => false
  | .selectRdiv => false

/-- The fields ENCODE_CTRL processes, in order, ABSENT ones left out: location, width, value (R150, R152). -/
def presentFields (l : ChannelLocs) (ctrl : BitVec 5) : List (FieldLoc × Nat × Byte) :=
  [(l.int, 1, ctrlIntMode ctrl), (l.rdiv, 3, ctrlRdiv ctrl), (l.div4, 1, ctrlDivBy4 ctrl)].filterMap
    fun (loc, w, v) => loc.map fun l => (l, w, v)

/-- The two transactions of one field's successful read-modify-write, given the byte the read returns (R150, R151). -/
def fieldEvents (f : FieldLoc × Nat × Byte) (d : Byte) : List Event :=
  [ .portRead f.1.addr (some (.ok d)),
    .portWrite f.1.addr [mergeField d f.2.1 f.1.shift f.2.2] (some .ok) ]

/-- The port still has an answer for every transaction one command can issue: three reads and three writes (R76). -/
def portReady (s : State) : Prop := 3 ≤ s.port.reads.length ∧ 3 ≤ s.port.writes.length

end Sys2Proof.Machine
end

