-- ==== Sys2Proof/Certificates/Slice0/Obligations.lean ====
section
/-! DEFINITION. The statements about FDPE. Numbers are those of 00_scope.md R6; FREQ_MULT is `s.params.freqMult`. How the model
holds what stands outside the block is its own choice and enters every statement of a step or a transaction: the host's accesses
are the list `s.host` (log entry 1), the port's answers `s.port` (log entry 2), the events `s.events` (log entry 5). -/

open Sys2Proof Sys2Proof.Machine

/-! ### Encoding -/

/-- Decode and encode agree, with every operand at every value (R71, R72, R78). -/
def Obligations.DecodeOfEncodeIsTheInstruction : Prop :=
  ∀ i : Instr, decode (encode i) = .ok i

/-- R73, R74, R78: a word decodes to `i` iff its reserved bits, its OP and the fields `i` reads are those of `encode i`; every
other bit is ignored. -/
def Obligations.DecodeReadsExactlyTheReadFields : Prop :=
  ∀ (w : CmdWord) (i : Instr), decode w = .ok i ↔ w &&& readMask i = encode i

/-- R75: every one of the 2^32 words is one of the nine operations or illegal, and which it is follows from bits 31:16 and
OP alone. -/
def Obligations.EveryWordIsOneOperationOrIllegal : Prop :=
  ∀ w : CmdWord,
    ((∃ i, decode w = .ok i) ↔ w.toNat / 65536 = 0 ∧ w.toNat % 16 ≤ 8) ∧
    (w.toNat / 65536 ≠ 0 → decode w = .error .reservedBits) ∧
    (w.toNat / 65536 = 0 → 9 ≤ w.toNat % 16 → decode w = .error .reservedOp)

/-- R81: the rows of the opcode table that select a word are exactly the row of the operation it decodes to, and none for an
illegal word. -/
def Obligations.TableRowsSelectTheDecodedOperation : Prop :=
  ∀ w : CmdWord,
    (opcodeTable.filter (·.selects w)).map (·.mnemonic) =
      match decode w with
      | .ok i => [mnemonic i]
      | .error _ => []

/-- Words written out from the encodings of R71, R72 and the examples of R73, R79 and R172. -/
def Obligations.SampleWordsDecodeAsTheSpecSays : Prop :=
  decode 0b00000000000000000000000000000000#32 = .ok .nop ∧
  decode 0b00000000000000000000000000000001#32 = .ok .correctRef ∧
  decode 0b00000000000000000000000000000010#32 = .ok .solve ∧
  decode 0x00000013#32 = .ok .planPll ∧
  decode 0x00000014#32 = .ok (.planMs true) ∧
  decode 0b00000000000000000000000000000101#32 = .ok .selectRdiv ∧
  decode 0x00001A06#32 = .ok (.encodeTriple 0x1A) ∧
  decode 0x00005A07#32 = .ok (.encodeAux 0x5A) ∧
  decode 0b00000000000000000000000010101000#32 = .ok (.encodeCtrl 5) ∧
  decode 0x00010002#32 = .error .reservedBits ∧
  decode 0x0000000F#32 = .error .reservedOp

/-! ### Registers and the host's accesses -/

/-- R43, HA6: after reset a host read of every index returns 0. That no event has happened then is the model's choice (log
entry 5). -/
def Obligations.ResetLeavesEveryRegisterZero : Prop :=
  (∀ i : Byte, regRead State.reset.regs i = 0) ∧ State.reset.events = []

/-- R200 to R202: a platform reset, which the model takes as a host access (log entry 8), leaves the registers of reset,
performs no transaction, and changes neither the parameters nor the port. -/
def Obligations.PlatformResetClearsTheRegistersOnly : Prop :=
  ∀ (s : State) (rest : List HostAccess), s.host = .reset :: rest →
    step s = .next { s with regs := State.reset.regs, host := rest, events := s.events ++ [.reset] }

/-- R22, R23: what a host read of a register returns after a host write to its index. -/
def Obligations.HostReadAfterHostWrite : Prop :=
  ∀ (r : Regs) (v : HostWord),
    (regRead (regStore r 0x00 v) 0x00).toNat = v.toNat % 2 ^ 32 ∧
    regStore r 0x01 v = r ∧
    regRead (regStore r 0x02 v) 0x02 = v ∧
    regRead (regStore r 0x03 v) 0x03 = v ∧
    (regRead (regStore r 0x04 v) 0x04).toNat = v.toNat % 2 ^ 20 ∧
    (regRead (regStore r 0x05 v) 0x05).toNat = v.toNat % 2 ^ 18 ∧
    (regRead (regStore r 0x06 v) 0x06).toNat = v.toNat % 2 ^ 20 ∧
    (regRead (regStore r 0x07 v) 0x07).toNat = v.toNat % 2 ^ 20 ∧
    (regRead (regStore r 0x08 v) 0x08).toNat = v.toNat % 2 ^ 5 ∧
    regRead (regStore r 0x09 v) 0x09 = v ∧
    (regRead (regStore r 0x0A v) 0x0A).toInt = (v.setWidth 32).toInt ∧
    (∀ i : Byte, 0x0B ≤ i.toNat → regStore r i v = r) ∧
    (∀ i : Byte, 0x11 ≤ i.toNat → regRead r i = 0)

/-- R22: a host write to one index changes the value read at no other index. -/
def Obligations.HostWriteChangesNoOtherRegister : Prop :=
  ∀ (r : Regs) (i j : Byte) (v : HostWord), i ≠ j → regRead (regStore r i v) j = regRead r j

/-- R22, R173: a host write to any index but that of CMD stores its value and does nothing else: no command runs, STATUS does
not change, no transaction is issued. -/
def Obligations.HostWriteOutsideCmdOnlyStores : Prop :=
  ∀ (s : State) (i : Byte) (v : HostWord) (rest : List HostAccess), s.host = .write i v :: rest → i ≠ 0x00 →
    (regStore s.regs i v).status = s.regs.status ∧
    step s = .next { s with regs := regStore s.regs i v, host := rest, events := s.events ++ [.hostWrite i v] }

/-- R23, R174: a host read changes no register, issues no transaction, and returns the register's value. -/
def Obligations.HostReadChangesNothing : Prop :=
  ∀ (s : State) (i : Byte) (rest : List HostAccess), s.host = .read i :: rest →
    step s = .next { s with host := rest, events := s.events ++ [.hostRead i (regRead s.regs i)] }

/-- R25: a host write to CMD stores all 32 bits and then runs the command the stored word encodes; the step is `exec` of the
decoded instruction on the state in which CMD, the event and the remaining accesses stand. -/
def Obligations.StepRunsTheDecodedCommand : Prop :=
  ∀ (s : State) (v : HostWord) (rest : List HostAccess) (i : Instr),
    s.host = .write 0x00 v :: rest → decode (v.setWidth 32) = .ok i →
    step s = exec i { s with
      regs := { s.regs with cmd := v.setWidth 32 }
      host := rest
      events := s.events ++ [.hostWrite 0x00 v] }

/-- R172: a word with a reserved bit set or a reserved OP leaves itself in CMD, STATUS = 0x0001, and nothing else changed. -/
def Obligations.ReservedCommandReportsIllegal : Prop :=
  ∀ (s : State) (v : HostWord) (rest : List HostAccess),
    s.host = .write 0x00 v :: rest → (v.toNat % 2 ^ 32 / 65536 ≠ 0 ∨ 9 ≤ v.toNat % 16) →
    step s = .next { s with
      regs := { s.regs with cmd := v.setWidth 32, status := 0x0001 }
      host := rest
      events := s.events ++ [.hostWrite 0x00 v] }

/-- R80, R210: `ldctrl` copies STATUS.INTMODE, STATUS.DIVBY4 and RES_RDIV into CTRL, and `ldtriple` moves RES_A, RES_B and
RES_C into P1, P2 and P3, truncating RES_A to 18 bits; neither changes another register. -/
def Obligations.LdctrlAndLdtripleMoveTheResults : Prop :=
  ∀ s : State,
    (∃ t : State, runStmt .ldctrl s = .next t ∧
      t.regs = { s.regs with ctrl := t.regs.ctrl } ∧
      ctrlIntMode t.regs.ctrl = (if statusIntMode s.regs.status then 1 else 0) ∧
      ctrlDivBy4 t.regs.ctrl = (if statusDivBy4 s.regs.status then 1 else 0) ∧
      (ctrlRdiv t.regs.ctrl).toNat = s.regs.resRdiv.toNat) ∧
    ∃ t : State, runStmt .ldtriple s = .next t ∧
      t.regs = { s.regs with p1 := t.regs.p1, p2 := s.regs.resB, p3 := s.regs.resC } ∧
      t.regs.p1.toNat = s.regs.resA.toNat % 2 ^ 18

/-! ### STATUS -/

/-- R26, R181: the fields of STATUS, read back from the word a command writes, and the error codes. -/
def Obligations.StatusFieldsReadBack : Prop :=
  (∀ (e : ErrCode) (f : Flags) (a : Byte),
    statusErr (statusWord e f a) = errBits e ∧
    statusClamped (statusWord e f a) = f.clamped ∧
    statusDivBy4 (statusWord e f a) = f.divBy4 ∧
    statusIntMode (statusWord e f a) = f.intMode ∧
    statusReserved (statusWord e f a) = false ∧
    statusErrAddr (statusWord e f a) = a) ∧
  [ErrCode.ok, .illegalCmd, .zeroDivisor, .refRange, .overflow, .operandRange, .portError].map (fun e => (errBits e).toNat) =
    [0, 1, 2, 3, 4, 5, 6]

/-- R27, R39: no command reads STATUS and every command rewrites all of it: the state a command leaves does not depend on the
STATUS it started with. -/
def Obligations.CommandsDoNotDependOnStatus : Prop :=
  ∀ (i : Instr) (s t : State) (v : BitVec 16), exec i s = .next t → exec i (setStatus s v) = .next t

/-- R27: flags are 0 when ERR is not, ERR_ADDR is 0 unless ERR is PORT_ERROR, and bit 7 is 0, after every command, from every
state. -/
def Obligations.EveryCommandLeavesALegalStatus : Prop :=
  ∀ (i : Instr) (s t : State), exec i s = .next t → statusLegal t.regs.status = true

/-- R182, R183: a command that ends with an error writes STATUS and no other register, and every flag of STATUS is 0. -/
def Obligations.ErringCommandWritesOnlyStatus : Prop :=
  ∀ (i : Instr) (s t : State), exec i s = .next t → statusErr t.regs.status ≠ 0 →
    t.regs = { s.regs with status := t.regs.status } ∧
    statusClamped t.regs.status = false ∧ statusDivBy4 t.regs.status = false ∧ statusIntMode t.regs.status = false

/-! ### Frames over all commands -/

/-- R76, the column "writes": a command changes no register but those of its row, no parameter and no pending host access;
and a command outside the encoder family issues no transaction. -/
def Obligations.CommandWritesOnlyItsRegisters : Prop :=
  ∀ (i : Instr) (s t : State), exec i s = .next t →
    (∀ n : RegName, n ∉ writesRegs i → readReg t.regs n = readReg s.regs n) ∧
    t.params = s.params ∧ t.host = s.host ∧
    (usesPort i = false → t.port = s.port ∧ t.events = s.events)

/-- R76, the column "reads": two register files that agree on the registers a command reads give the same end, the same
transactions, the same STATUS, and, where the command completes, the same value in every register it writes. -/
def Obligations.CommandReadsOnlyItsRegisters : Prop :=
  ∀ (i : Instr) (s t : State) (r : Regs),
    (∀ n ∈ readsRegs i, readReg r n = readReg s.regs n) → exec i s = .next t →
    ∃ u : State, exec i (setRegs s r) = .next u ∧
      u.events = t.events ∧ u.port = t.port ∧ u.regs.status = t.regs.status ∧
      (statusErr t.regs.status = 0 → ∀ n ∈ writesRegs i, readReg u.regs n = readReg t.regs n)

/-- R35, R208: REF_EFF changes only by a CORRECT_REF command or a reset. -/
def Obligations.RefEffChangesOnlyByCorrectRef : Prop :=
  ∀ s t : State, step s = .next t → t.regs.refEff ≠ s.regs.refEff →
    (∃ rest, s.host = .reset :: rest) ∨
    ∃ v rest, s.host = .write 0x00 v :: rest ∧ decode (v.setWidth 32) = .ok .correctRef

/-- R27, R173, R207: STATUS changes only by a command or a reset. -/
def Obligations.StatusChangesOnlyByCommands : Prop :=
  ∀ s t : State, step s = .next t → t.regs.status ≠ s.regs.status →
    (∃ rest, s.host = .reset :: rest) ∨ ∃ v rest, s.host = .write 0x00 v :: rest

/-! ### Invariants and runs -/

/-- R5, R7, R26, R27, R42: the parameters stay those of the instance and STATUS stays legal, over every step from every state
that meets the invariant. -/
def Obligations.InvariantKeptByEveryStep : Prop :=
  ∀ s t : State, Inv s → step s = .next t → Inv t ∧ t.params = s.params

/-- R43 and the constraints of R5, R7: the invariant holds right after reset. -/
def Obligations.InvariantHoldsAtReset : Prop := Inv State.reset

/-- R61: a step that takes a host access adds that access's event and then only port transactions, after every earlier event,
and leaves the host's other accesses in their order. -/
def Obligations.EventsFormOneTotalOrder : Prop :=
  ∀ (s t : State) (a : HostAccess) (rest : List HostAccess), s.host = a :: rest → step s = .next t →
    t.host = rest ∧ ∃ l, t.events = s.events ++ accessEvent s.regs a :: l ∧ l.all isPortEvent = true

/-- R189: no step is refused, and the only stop is the stuck block, whose last event is a transaction never answered and whose
STATUS the command did not write. -/
def Obligations.OnlyAnUnansweredPortStopsTheBlock : Prop :=
  ∀ s : State,
    (∃ t, step s = .next t) ∨
    ∃ t l e, step s = .fault (.portNeverAnswers t) ∧ t.events = s.events ++ l ++ [e] ∧ neverAnswered e = true ∧
      t.regs.status = s.regs.status

/-- R213: a port with an answer for each transaction of a command lets every step end. -/
def Obligations.AnsweringPortLetsEveryStepEnd : Prop :=
  ∀ s : State, portReady s → ∃ t, step s = .next t

/-- R153, R184: PORT_ERROR is reported for the first transaction that fails, with its address, and nothing is issued after it;
with any other code no transaction failed. -/
def Obligations.PortErrorNamesTheFirstFailure : Prop :=
  ∀ (i : Instr) (s t : State), exec i s = .next t →
    (statusErr t.regs.status = 6 →
      ∃ l e, t.events = s.events ++ l ++ [e] ∧ (∀ x ∈ l, succeeded x) ∧ failedAt e (statusErrAddr t.regs.status)) ∧
    (statusErr t.regs.status ≠ 6 → ∃ l, t.events = s.events ++ l ∧ ∀ x ∈ l, succeeded x)

/-- R204: PLAN_PLL as the first command after reset raises ZERO_DIVISOR. -/
def Obligations.PlanPllAfterResetIsZeroDivisor : Prop :=
  ∃ t : State, step (State.reset.withFetchWord 32 0x00000003) = .next t ∧ t.regs.status = 0x0002

/-! ### The divider -/

/-- R92: the bounds of `fpd`. -/
def Obligations.FpdBounds : Prop :=
  ∀ n d f : Nat, 0 < d →
    let t := fpd n d f
    let r := n % d
    n = t.a * d + r ∧ r < d ∧
    (0 < f → t.b < f) ∧ (f = 0 → t.b = 0) ∧
    (0 < t.b → t.c = f ∧ t.b < t.c) ∧ (t.b = 0 → t.c = 1) ∧ 1 ≤ t.c ∧
    (0 < f → t.b * d ≤ r * f ∧ r * f < (t.b + 1) * d) ∧
    (t.a * t.c + t.b) * d ≤ n * t.c ∧
    (0 < f → n * f < (t.a * f + t.b + 1) * d)

/-- R93: exactness. -/
def Obligations.FpdExactDivision : Prop :=
  ∀ n d f : Nat, 0 < d → d ∣ n → fpd n d f = { a := n / d, b := 0, c := 1 }

/-- R91: SOLVE, its encoding, its error and its result, for every state. -/
def Obligations.SolveWritesTheDividerTriple : Prop :=
  (∀ w : CmdWord, decode w = .ok .solve ↔ w &&& 0xFFFF000F = 0x00000002) ∧
  ∀ s : State,
    let n := s.regs.opa.toNat
    let d := s.regs.opb.toNat
    let f := s.regs.opf.toNat
    let a := n / d
    let b := (n % d * f) / d
    let c := if b = 0 then 1 else f
    (d = 0 → exec .solve s = .next (setStatus s (errStatus .zeroDivisor 0))) ∧
    (d ≠ 0 →
      a < 2 ^ 64 ∧ b < 2 ^ 20 ∧ c < 2 ^ 20 ∧
      exec .solve s = .next { s with regs := { s.regs with
        resA := BitVec.ofNat 64 a, resB := BitVec.ofNat 20 b, resC := BitVec.ofNat 20 c
        status := okStatus { intMode := b == 0 } } })

/-- R95: CORRECT_REF, its encoding, its error and its result, for every state. -/
def Obligations.CorrectRefWritesTheCorrectedReference : Prop :=
  (∀ w : CmdWord, decode w = .ok .correctRef ↔ w &&& 0xFFFF000F = 0x00000001) ∧
  ∀ s : State,
    let nom : Int := s.regs.refNom.toNat
    let ppb : Int := s.regs.refPpb.toInt
    let e : Int := nom + Int.tdiv (ppb * nom) 1000000000
    (e < 1 ∨ 2 ^ 64 - 1 < e → exec .correctRef s = .next (setStatus s (errStatus .refRange 0))) ∧
    (1 ≤ e → e ≤ 2 ^ 64 - 1 →
      ((BitVec.ofInt 64 e).toNat : Int) = e ∧
      exec .correctRef s = .next { s with regs := { s.regs with refEff := BitVec.ofInt 64 e, status := okStatus {} } })

/-- R96: the magnitude of the correction is the floor of |ppb|·nom / 10^9, and its sign is that of ppb: truncation toward
zero. -/
def Obligations.CorrectionTruncatesTowardZero : Prop :=
  ∀ (nom : Nat) (ppb : Int),
    let k := (ppb.natAbs * nom) / 1000000000
    correctedRef nom ppb = if 0 ≤ ppb then (nom : Int) + k else (nom : Int) - k

/-- R97: CORRECT_REF issued twice gives what it gives once. -/
def Obligations.CorrectRefTwiceIsCorrectRefOnce : Prop :=
  ∀ s t : State, exec .correctRef s = .next t → exec .correctRef t = .next t

/-- R100, R101, R104: PLAN_PLL, its encoding, its errors and its result, for every state. -/
def Obligations.PlanPllWritesTheFeedbackTriple : Prop :=
  (∀ w : CmdWord, decode w = .ok .planPll ↔ w &&& 0xFFFF000F = 0x00000003) ∧
  ∀ s : State,
    let ref := s.regs.refEff.toNat
    let t := s.regs.opa.toNat
    let a0 := t / ref
    let a := if a0 < 24 then 24 else if 36 < a0 then 36 else a0
    let t' := if a0 < 24 then ref * 24 else if 36 < a0 then ref * 36 else t
    let b := (t' % ref * 1000000) / ref
    let c := if b = 0 then 1 else 1000000
    let vco := (ref * (a * c + b)) / c
    (ref = 0 → exec .planPll s = .next (setStatus s (errStatus .zeroDivisor 0))) ∧
    (ref ≠ 0 → 2 ^ 64 - 1 < vco → exec .planPll s = .next (setStatus s (errStatus .overflow 0))) ∧
    (ref ≠ 0 → vco ≤ 2 ^ 64 - 1 →
      t' / ref = a ∧ a < 2 ^ 64 ∧ b < 2 ^ 20 ∧ c < 2 ^ 20 ∧
      exec .planPll s = .next { s with regs := { s.regs with
        resA := BitVec.ofNat 64 a, resB := BitVec.ofNat 20 b, resC := BitVec.ofNat 20 c, resFreq := BitVec.ofNat 64 vco
        status := okStatus { clamped := a0 < 24 || 36 < a0, intMode := b == 0 } } })

/-- R102: integer feedback is recovered exactly. -/
def Obligations.PlanPllRecoversIntegerFeedback : Prop :=
  ∀ (s : State) (a : Nat), 1 ≤ s.regs.refEff.toNat → 24 ≤ a → a ≤ 36 →
    s.regs.opa.toNat = s.regs.refEff.toNat * a →
    exec .planPll s = .next { s with regs := { s.regs with
      resA := BitVec.ofNat 64 a, resB := 0, resC := 1, resFreq := s.regs.opa, status := okStatus { intMode := true } } }

/-- R103, first sentence after the title, and R100's last claim: the range of the realized frequency, never above an unclamped
target, and a clamped result is `(a, 0, 1)`. -/
def Obligations.PlanPllRealizedFrequencyRange : Prop :=
  ∀ s t : State, exec .planPll s = .next t → statusErr t.regs.status = 0 →
    let ref := s.regs.refEff.toNat
    ref * 24 ≤ t.regs.resFreq.toNat ∧ t.regs.resFreq.toNat < ref * 37 ∧
    (statusClamped t.regs.status = false → t.regs.resFreq.toNat ≤ s.regs.opa.toNat) ∧
    (statusClamped t.regs.status = true → t.regs.resB = 0 ∧ t.regs.resC = 1)

/-- R103's inference "So RES_FREQ lies in [VCO_MIN, VCO_MAX] whenever ref × 24 ≥ VCO_MIN and VCO_MIN ≤ t ≤ VCO_MAX", as it
stands. It does not follow: with ref × 24 above VCO_MAX a target in the range is clamped up out of it (log entry 13). Expected
to fail. -/
def Obligations.PlanPllVcoRangeAsR103InfersIt : Prop :=
  ∀ s t : State, s.params.wf = true → exec .planPll s = .next t → statusErr t.regs.status = 0 →
    600000000 * s.params.freqMult ≤ s.regs.refEff.toNat * 24 →
    600000000 * s.params.freqMult ≤ s.regs.opa.toNat → s.regs.opa.toNat ≤ 900000000 * s.params.freqMult →
    600000000 * s.params.freqMult ≤ t.regs.resFreq.toNat ∧ t.regs.resFreq.toNat ≤ 900000000 * s.params.freqMult

/-- The same inference for a target not below ref × 24, which R103's own example of ref = 25,000,000 fu × FREQ_MULT meets. -/
def Obligations.PlanPllVcoRangeForAnUnclampedTarget : Prop :=
  ∀ s t : State, exec .planPll s = .next t → statusErr t.regs.status = 0 →
    600000000 * s.params.freqMult ≤ s.regs.refEff.toNat * 24 → s.regs.refEff.toNat * 24 ≤ s.regs.opa.toNat →
    s.regs.opa.toNat ≤ 900000000 * s.params.freqMult →
    600000000 * s.params.freqMult ≤ t.regs.resFreq.toNat ∧ t.regs.resFreq.toNat ≤ 900000000 * s.params.freqMult

/-- R110 to R115: PLAN_MS, its encoding, its error and its results in both modes, for every state whose parameters are those
of a model instance. -/
def Obligations.PlanMsWritesTheOutputTriple : Prop :=
  (∀ (w : CmdWord) (aux : Bool),
    decode w = .ok (.planMs aux) ↔ w &&& 0xFFFF001F = if aux then 0x00000014 else 0x00000004) ∧
  ∀ (s : State) (aux : Bool), s.params.wf = true →
    let m := s.params.freqMult
    let t := s.regs.opa.toNat
    let pll := s.regs.opb.toNat
    let f := if t < 500000 * m then 500000 * m else if 225000000 * m < t then 225000000 * m else t
    let d4 : Bool := 150000000 * m ≤ f
    let k := 900000000 * m / f
    let aFree := if k = 5 then 4 else if k = 7 then 6 else k
    let amax := if aux then 254 else 1800
    let a0 := pll / f
    let aFix := if a0 < 6 then 6 else if amax < a0 then amax else a0
    let f' := if a0 < 6 then pll / 6 else if amax < a0 then pll / amax else f
    let bFix := (pll % f' * 1000000) / f'
    let cFix := if bFix = 0 then 1 else 1000000
    (pll = 0 →
      aFree * f < 2 ^ 64 ∧
      exec (.planMs aux) s = .next { s with regs := { s.regs with
        resA := if d4 then 0 else BitVec.ofNat 64 aFree, resB := 0, resC := 1, resFreq := BitVec.ofNat 64 (aFree * f)
        status := okStatus { clamped := f != t, divBy4 := d4, intMode := true } } }) ∧
    (pll ≠ 0 → f' = 0 → exec (.planMs aux) s = .next (setStatus s (errStatus .zeroDivisor 0))) ∧
    (pll ≠ 0 → f' ≠ 0 →
      aFix < 2 ^ 64 ∧ bFix < 2 ^ 20 ∧ cFix < 2 ^ 20 ∧
      exec (.planMs aux) s = .next { s with regs := { s.regs with
        resA := if d4 then 0 else BitVec.ofNat 64 aFix
        resB := if d4 then 0 else BitVec.ofNat 20 bFix
        resC := if d4 then 1 else BitVec.ofNat 20 cFix
        resFreq := s.regs.opb
        status := okStatus
          { clamped := f != t || a0 < 6 || amax < a0, divBy4 := d4, intMode := d4 || bFix == 0 } } })

/-- R110, R181: in PLL-fixed mode ZERO_DIVISOR is raised iff OPB is below 6, also where divide-by-4 is selected. -/
def Obligations.PlanMsZeroDivisorIffPllBelowSix : Prop :=
  ∀ (s t : State) (aux : Bool), s.params.wf = true → s.regs.opb ≠ 0 → exec (.planMs aux) s = .next t →
    (statusErr t.regs.status = 2 ↔ s.regs.opb.toNat < 6) ∧ (statusErr t.regs.status = 0 ↔ 6 ≤ s.regs.opb.toNat)

/-- R112: in PLL-not-yet-fixed mode the returned PLL frequency lies in (VCO_MIN, VCO_MAX]. -/
def Obligations.PlanMsReturnsAPllFrequencyInTheVcoRange : Prop :=
  ∀ (s t : State) (aux : Bool), s.params.wf = true → s.regs.opb = 0 → exec (.planMs aux) s = .next t →
    600000000 * s.params.freqMult < t.regs.resFreq.toNat ∧ t.regs.resFreq.toNat ≤ 900000000 * s.params.freqMult

/-- R111, R114: whenever the clamped target is at least DIVBY4_MIN and the command completes, the triple is (0, 0, 1) and
DIVBY4 and INTMODE are set; and DIVBY4 is set only then. -/
def Obligations.DivideByFourOverridesTheTriple : Prop :=
  ∀ (s t : State) (aux : Bool), s.params.wf = true → exec (.planMs aux) s = .next t → statusErr t.regs.status = 0 →
    (150000000 * s.params.freqMult ≤ s.regs.opa.toNat →
      t.regs.resA = 0 ∧ t.regs.resB = 0 ∧ t.regs.resC = 1 ∧
      statusDivBy4 t.regs.status = true ∧ statusIntMode t.regs.status = true) ∧
    (s.regs.opa.toNat < 150000000 * s.params.freqMult → statusDivBy4 t.regs.status = false)

/-- R116: exact multiples below DIVBY4_MIN are recovered exactly. R116 names no AUX; with AUX = 1 the divider must also be in the
auxiliary range of R113, or R113 clamps it. -/
def Obligations.PlanMsRecoversExactMultiples : Prop :=
  ∀ (s : State) (aux : Bool) (a : Nat), s.params.wf = true →
    500000 * s.params.freqMult ≤ s.regs.opa.toNat → s.regs.opa.toNat < 150000000 * s.params.freqMult →
    6 ≤ a → a ≤ (if aux then 254 else 1800) → s.regs.opb.toNat = a * s.regs.opa.toNat →
    s.regs.opb.toNat / a = s.regs.opa.toNat ∧
    exec (.planMs aux) s = .next { s with regs := { s.regs with
      resA := BitVec.ofNat 64 a, resB := 0, resC := 1, resFreq := s.regs.opb, status := okStatus { intMode := true } } }

/-- R117: in PLL-not-yet-fixed mode RES_FREQ divided by RES_A is the target, with no remainder. -/
def Obligations.PlanMsReconstructsTheTarget : Prop :=
  ∀ (s : State) (aux : Bool), s.params.wf = true → s.regs.opb = 0 →
    500000 * s.params.freqMult ≤ s.regs.opa.toNat → s.regs.opa.toNat < 150000000 * s.params.freqMult →
    ∃ t, exec (.planMs aux) s = .next t ∧ t.regs.resFreq.toNat = t.regs.resA.toNat * s.regs.opa.toNat ∧
      t.regs.resA.toNat ≠ 0 ∧ t.regs.resB = 0 ∧ t.regs.resC = 1

/-- R118: a clamped PLL-fixed triple is consistent with `pll / f'` at and above the thresholds: 36 at the lower clamp, amax² at
the upper one. -/
def Obligations.ClampedFixedTripleIsConsistent : Prop :=
  ∀ (pll f : Nat) (aux : Bool) (tr : Triple), 0 < f → fixedTriple pll f aux = some tr →
    let amax := if aux then 254 else 1800
    let a := if pll / f < 6 then 6 else amax
    (pll / f < 6 ∧ 36 ≤ pll ∨ amax < pll / f ∧ amax ^ 2 ≤ pll) →
    tr.a = a ∧ pll / (pll / a) = a ∧
    (tr.a * tr.c + tr.b) * (pll / a) ≤ pll * tr.c ∧ pll * 1000000 < (tr.a * 1000000 + tr.b + 1) * (pll / a)

/-- R119: AUX has no effect in PLL-not-yet-fixed mode. -/
def Obligations.AuxHasNoEffectWithThePllNotFixed : Prop :=
  ∀ s : State, s.regs.opb = 0 → exec (.planMs true) s = exec (.planMs false) s

/-- R120 to R122: SELECT_RDIV, its encoding, and its result in each window and outside them. -/
def Obligations.SelectRdivChoosesTheWindow : Prop :=
  (∀ w : CmdWord, decode w = .ok .selectRdiv ↔ w &&& 0xFFFF000F = 0x00000005) ∧
  ∀ s : State, s.params.wf = true →
    let rmin := 4000 * s.params.freqMult
    let f := s.regs.opa.toNat
    (∀ k, k ≤ 6 → rmin * 2 ^ k ≤ f → f < rmin * 2 ^ (k + 1) →
      f * 2 ^ (7 - k) < 2 ^ 64 ∧
      exec .selectRdiv s = .next { s with regs := { s.regs with
        resRdiv := BitVec.ofNat 3 (7 - k), resFreq := BitVec.ofNat 64 (f * 2 ^ (7 - k)), status := okStatus {} } }) ∧
    (f < rmin ∨ rmin * 128 ≤ f →
      exec .selectRdiv s = .next { s with regs := { s.regs with
        resRdiv := 0, resFreq := s.regs.opa, status := okStatus {} } })

/-- R123: every scaled frequency lands in [RDIV_MIN × 128, RDIV_MIN × 256), inside PLAN_MS's target range. -/
def Obligations.ScaledFrequencyLandsInTheOutputRange : Prop :=
  ∀ s t : State, s.params.wf = true → exec .selectRdiv s = .next t →
    4000 * s.params.freqMult ≤ s.regs.opa.toNat → s.regs.opa.toNat < 4000 * s.params.freqMult * 128 →
    4000 * s.params.freqMult * 128 ≤ t.regs.resFreq.toNat ∧ t.regs.resFreq.toNat < 4000 * s.params.freqMult * 256 ∧
    500000 * s.params.freqMult ≤ t.regs.resFreq.toNat ∧ t.regs.resFreq.toNat ≤ 225000000 * s.params.freqMult

/-- R210: the results of a completed PLAN_PLL or PLAN_MS fit P1, P2 and P3: `ldtriple` after it truncates nothing. -/
def Obligations.PlannedTriplesFitTheEncoderRegisters : Prop :=
  ∀ (i : Instr) (s t : State), (i = .planPll ∨ ∃ aux, i = .planMs aux) → s.params.wf = true → exec i s = .next t →
    statusErr t.regs.status = 0 → t.regs.resA.toNat < 2 ^ 18

/-! ### The encoder -/

/-- R141, R142: ENCODE_TRIPLE, its encoding, the bytes of its one transaction, its success and its failure. -/
def Obligations.EncodeTripleWritesTheParameterBlock : Prop :=
  (∀ (w : CmdWord) (base : Byte),
    decode w = .ok (.encodeTriple base) ↔ w &&& 0xFFFF000F = 0x00000006 ∧ w.toNat / 256 % 256 = base.toNat) ∧
  ∀ (s : State) (base : Byte),
    let p1 := s.regs.p1.toNat
    let p2 := s.regs.p2.toNat
    let p3 := s.regs.p3.toNat
    let pay : List Byte := [p3 / 256 % 256, p3 % 256, p1 / 65536, p1 / 256 % 256, p1 % 256,
      p3 / 65536 * 16 + p2 / 65536, p2 / 256 % 256, p2 % 256].map (BitVec.ofNat 8)
    (∀ rest, s.port.writes = .ok :: rest →
      exec (.encodeTriple base) s = .next { s with
        regs := { s.regs with status := okStatus {} }
        port := { s.port with writes := rest }
        events := s.events ++ [.portWrite base pay (some .ok)] }) ∧
    (∀ rest, s.port.writes = .fail :: rest →
      exec (.encodeTriple base) s = .next { s with
        regs := { s.regs with status := errStatus .portError base }
        port := { s.port with writes := rest }
        events := s.events ++ [.portWrite base pay (some .fail)] })

/-- R143: what `decode9` reads, the round trip of the parameter block, and when the converse holds. -/
def Obligations.ParameterBlockRoundTrip : Prop :=
  (∀ (base : Byte) (p1 : BitVec 18) (p2 p3 : BitVec 20),
    decode9 (encode9 base p1 p2 p3) = some { base := base, p1 := p1, p2 := p2, p3 := p3 }) ∧
  ∀ (y0 y1 y2 y3 y4 y5 y6 y7 y8 : Byte),
    ∃ x, decode9 [y0, y1, y2, y3, y4, y5, y6, y7, y8] = some x ∧
      x.base = y0 ∧
      x.p1.toNat = y3.toNat % 4 * 65536 + y4.toNat * 256 + y5.toNat ∧
      x.p2.toNat = y6.toNat % 16 * 65536 + y7.toNat * 256 + y8.toNat ∧
      x.p3.toNat = y6.toNat / 16 * 65536 + y1.toNat * 256 + y2.toNat ∧
      (encode9 x.base x.p1 x.p2 x.p3 = [y0, y1, y2, y3, y4, y5, y6, y7, y8] ↔ y3.toNat < 4)

/-- R206: under PORT_AUTOINC byte 3 of the block lands at BASE + 2, with its bits 7:2 zero. -/
def Obligations.ParameterBlockClearsTheNeighbouringBits : Prop :=
  ∀ (p : Params) (base : Byte) (p1 : BitVec 18) (p2 p3 : BitVec 20), p.portAutoinc = true → base.toNat ≤ 0xFD →
    landingAddr p base 2 = some (base + 2) ∧ ∃ y, (parameterBlock p1 p2 p3)[2]? = some y ∧ y.toNat < 4

/-- R145: ENCODE_AUX, its encoding, its range error, its transaction, its success and its failure. -/
def Obligations.EncodeAuxWritesOneByte : Prop :=
  (∀ (w : CmdWord) (base : Byte),
    decode w = .ok (.encodeAux base) ↔ w &&& 0xFFFF000F = 0x00000007 ∧ w.toNat / 256 % 256 = base.toNat) ∧
  ∀ (s : State) (base : Byte),
    let p1 := s.regs.p1.toNat
    (255 < p1 → exec (.encodeAux base) s = .next (setStatus s (errStatus .operandRange 0))) ∧
    (∀ rest, p1 ≤ 255 → s.port.writes = .ok :: rest →
      exec (.encodeAux base) s = .next { s with
        regs := { s.regs with status := okStatus {} }
        port := { s.port with writes := rest }
        events := s.events ++ [.portWrite base [BitVec.ofNat 8 p1] (some .ok)] }) ∧
    (∀ rest, p1 ≤ 255 → s.port.writes = .fail :: rest →
      exec (.encodeAux base) s = .next { s with
        regs := { s.regs with status := errStatus .portError base }
        port := { s.port with writes := rest }
        events := s.events ++ [.portWrite base [BitVec.ofNat 8 p1] (some .fail)] })

/-- R151: the merge of one field, bit by bit: the field's bits are the value's, every other bit is the old one; and CTRL's
fields have the widths of the fields they are merged into. -/
def Obligations.MergeChangesExactlyTheField : Prop :=
  (∀ (old v : Byte) (w sh i : Nat), sh + w ≤ 8 → i < 8 →
    (mergeField old w sh v).getLsbD i = if sh ≤ i ∧ i < sh + w then v.getLsbD (i - sh) else old.getLsbD i) ∧
  ∀ c : BitVec 5, (ctrlIntMode c).toNat < 2 ^ 1 ∧ (ctrlRdiv c).toNat < 2 ^ 3 ∧ (ctrlDivBy4 c).toNat < 2 ^ 1

/-- R150, R152: ENCODE_CTRL with every transaction successful: one read and one write for each present field, in the order
integer mode, R-divider, divide-by-4, each write the merge of what its read returned, whatever the port returned. -/
def Obligations.EncodeCtrlUpdatesEachPresentField : Prop :=
  ∀ (s : State) (ch : Channel) (ds : List Byte) (reads : List ReadAnswer) (writes : List WriteAnswer),
    let fs := presentFields (channelLocs s.params ch) s.regs.ctrl
    ds.length = fs.length →
    s.port.reads = ds.map ReadAnswer.ok ++ reads → s.port.writes = List.replicate fs.length WriteAnswer.ok ++ writes →
    exec (.encodeCtrl ch) s = .next { s with
      regs := { s.regs with status := okStatus {} }
      port := { reads := reads, writes := writes }
      events := s.events ++ (List.zipWith fieldEvents fs ds).flatten }

/-- R150, R153: a failed transaction of ENCODE_CTRL ends it: the earlier fields stay written, a failed read issues no write for
its field, and nothing is issued for the later fields. -/
def Obligations.EncodeCtrlEndsAtTheFirstFailure : Prop :=
  ∀ (s : State) (ch : Channel) (ds : List Byte) (f : FieldLoc × Nat × Byte) (reads : List ReadAnswer)
    (writes : List WriteAnswer),
    let fs := presentFields (channelLocs s.params ch) s.regs.ctrl
    fs[ds.length]? = some f →
    let before := (List.zipWith fieldEvents fs ds).flatten
    (s.port.reads = ds.map ReadAnswer.ok ++ .fail :: reads →
      s.port.writes = List.replicate ds.length WriteAnswer.ok ++ writes →
      exec (.encodeCtrl ch) s = .next { s with
        regs := { s.regs with status := errStatus .portError f.1.addr }
        port := { reads := reads, writes := writes }
        events := s.events ++ before ++ [.portRead f.1.addr (some .fail)] }) ∧
    (∀ d, s.port.reads = ds.map ReadAnswer.ok ++ .ok d :: reads →
      s.port.writes = List.replicate ds.length WriteAnswer.ok ++ .fail :: writes →
      exec (.encodeCtrl ch) s = .next { s with
        regs := { s.regs with status := errStatus .portError f.1.addr }
        port := { reads := reads, writes := writes }
        events := s.events ++ before ++
          [ .portRead f.1.addr (some (.ok d)),
            .portWrite f.1.addr [mergeField d f.2.1 f.1.shift f.2.2] (some .fail) ] })

/-! ### The system commands -/

/-- R170: NOP, its encoding, and its effect: STATUS cleared and nothing else changed. -/
def Obligations.NopClearsStatusOnly : Prop :=
  (∀ w : CmdWord, decode w = .ok .nop ↔ w &&& 0xFFFF000F = 0x00000000) ∧
  ∀ s : State, exec .nop s = .next { s with regs := { s.regs with status := 0x0000 } }
end

