-- ==== Sys2Proof/Laws/State.lean ====
section
/-! SUPPORT. The small lemmas of the state: one per field of State per update, true by rfl. The register file after an update
is one lemma, from which simp reads each register. -/

namespace Sys2Proof.Machine

@[simp] theorem setCmd_regs (s : State) (w : CmdWord) : (setCmd s w).regs = { s.regs with cmd := w } := rfl
@[simp] theorem setCmd_params (s : State) (w : CmdWord) : (setCmd s w).params = s.params := rfl
@[simp] theorem setCmd_host (s : State) (w : CmdWord) : (setCmd s w).host = s.host := rfl
@[simp] theorem setCmd_port (s : State) (w : CmdWord) : (setCmd s w).port = s.port := rfl
@[simp] theorem setCmd_events (s : State) (w : CmdWord) : (setCmd s w).events = s.events := rfl

@[simp] theorem setStatus_regs (s : State) (v : BitVec 16) : (setStatus s v).regs = { s.regs with status := v } := rfl
@[simp] theorem setStatus_params (s : State) (v : BitVec 16) : (setStatus s v).params = s.params := rfl
@[simp] theorem setStatus_host (s : State) (v : BitVec 16) : (setStatus s v).host = s.host := rfl
@[simp] theorem setStatus_port (s : State) (v : BitVec 16) : (setStatus s v).port = s.port := rfl
@[simp] theorem setStatus_events (s : State) (v : BitVec 16) : (setStatus s v).events = s.events := rfl

@[simp] theorem setRefEff_regs (s : State) (v : BitVec 64) : (setRefEff s v).regs = { s.regs with refEff := v } := rfl
@[simp] theorem setRefEff_params (s : State) (v : BitVec 64) : (setRefEff s v).params = s.params := rfl
@[simp] theorem setRefEff_host (s : State) (v : BitVec 64) : (setRefEff s v).host = s.host := rfl
@[simp] theorem setRefEff_port (s : State) (v : BitVec 64) : (setRefEff s v).port = s.port := rfl
@[simp] theorem setRefEff_events (s : State) (v : BitVec 64) : (setRefEff s v).events = s.events := rfl

@[simp] theorem setTriple_regs (s : State) (a : BitVec 64) (b c : BitVec 20) : (setTriple s a b c).regs = { s.regs with resA := a, resB := b, resC := c } := rfl
@[simp] theorem setTriple_params (s : State) (a : BitVec 64) (b c : BitVec 20) : (setTriple s a b c).params = s.params := rfl
@[simp] theorem setTriple_host (s : State) (a : BitVec 64) (b c : BitVec 20) : (setTriple s a b c).host = s.host := rfl
@[simp] theorem setTriple_port (s : State) (a : BitVec 64) (b c : BitVec 20) : (setTriple s a b c).port = s.port := rfl
@[simp] theorem setTriple_events (s : State) (a : BitVec 64) (b c : BitVec 20) : (setTriple s a b c).events = s.events := rfl

@[simp] theorem setResFreq_regs (s : State) (v : BitVec 64) : (setResFreq s v).regs = { s.regs with resFreq := v } := rfl
@[simp] theorem setResFreq_params (s : State) (v : BitVec 64) : (setResFreq s v).params = s.params := rfl
@[simp] theorem setResFreq_host (s : State) (v : BitVec 64) : (setResFreq s v).host = s.host := rfl
@[simp] theorem setResFreq_port (s : State) (v : BitVec 64) : (setResFreq s v).port = s.port := rfl
@[simp] theorem setResFreq_events (s : State) (v : BitVec 64) : (setResFreq s v).events = s.events := rfl

@[simp] theorem setResRdiv_regs (s : State) (v : BitVec 3) : (setResRdiv s v).regs = { s.regs with resRdiv := v } := rfl
@[simp] theorem setResRdiv_params (s : State) (v : BitVec 3) : (setResRdiv s v).params = s.params := rfl
@[simp] theorem setResRdiv_host (s : State) (v : BitVec 3) : (setResRdiv s v).host = s.host := rfl
@[simp] theorem setResRdiv_port (s : State) (v : BitVec 3) : (setResRdiv s v).port = s.port := rfl
@[simp] theorem setResRdiv_events (s : State) (v : BitVec 3) : (setResRdiv s v).events = s.events := rfl

@[simp] theorem setRegs_regs (s : State) (r : Regs) : (setRegs s r).regs = r := rfl
@[simp] theorem setRegs_params (s : State) (r : Regs) : (setRegs s r).params = s.params := rfl
@[simp] theorem setRegs_host (s : State) (r : Regs) : (setRegs s r).host = s.host := rfl
@[simp] theorem setRegs_port (s : State) (r : Regs) : (setRegs s r).port = s.port := rfl
@[simp] theorem setRegs_events (s : State) (r : Regs) : (setRegs s r).events = s.events := rfl

@[simp] theorem record_regs (s : State) (e : Event) : (record s e).regs = s.regs := rfl
@[simp] theorem record_params (s : State) (e : Event) : (record s e).params = s.params := rfl
@[simp] theorem record_host (s : State) (e : Event) : (record s e).host = s.host := rfl
@[simp] theorem record_port (s : State) (e : Event) : (record s e).port = s.port := rfl
@[simp] theorem record_events (s : State) (e : Event) : (record s e).events = s.events ++ [e] := rfl

@[simp] theorem setHost_regs (s : State) (h : List HostAccess) : (setHost s h).regs = s.regs := rfl
@[simp] theorem setHost_params (s : State) (h : List HostAccess) : (setHost s h).params = s.params := rfl
@[simp] theorem setHost_host (s : State) (h : List HostAccess) : (setHost s h).host = h := rfl
@[simp] theorem setHost_port (s : State) (h : List HostAccess) : (setHost s h).port = s.port := rfl
@[simp] theorem setHost_events (s : State) (h : List HostAccess) : (setHost s h).events = s.events := rfl

@[simp] theorem setPort_regs (s : State) (p : Port) : (setPort s p).regs = s.regs := rfl
@[simp] theorem setPort_params (s : State) (p : Port) : (setPort s p).params = s.params := rfl
@[simp] theorem setPort_host (s : State) (p : Port) : (setPort s p).host = s.host := rfl
@[simp] theorem setPort_port (s : State) (p : Port) : (setPort s p).port = p := rfl
@[simp] theorem setPort_events (s : State) (p : Port) : (setPort s p).events = s.events := rfl

@[simp] theorem complete_regs (s : State) (f : Flags) : (complete f s).regs = { s.regs with status := okStatus f } := rfl
@[simp] theorem complete_params (s : State) (f : Flags) : (complete f s).params = s.params := rfl
@[simp] theorem complete_host (s : State) (f : Flags) : (complete f s).host = s.host := rfl
@[simp] theorem complete_port (s : State) (f : Flags) : (complete f s).port = s.port := rfl
@[simp] theorem complete_events (s : State) (f : Flags) : (complete f s).events = s.events := rfl

@[simp] theorem raise_regs (s : State) (e : ErrCode) (a : Byte) : (raise e a s).regs = { s.regs with status := errStatus e a } := rfl
@[simp] theorem raise_params (s : State) (e : ErrCode) (a : Byte) : (raise e a s).params = s.params := rfl
@[simp] theorem raise_host (s : State) (e : ErrCode) (a : Byte) : (raise e a s).host = s.host := rfl
@[simp] theorem raise_port (s : State) (e : ErrCode) (a : Byte) : (raise e a s).port = s.port := rfl
@[simp] theorem raise_events (s : State) (e : ErrCode) (a : Byte) : (raise e a s).events = s.events := rfl

@[simp] theorem writeTriple_regs (s : State) (t : Triple) : (writeTriple s t).regs = { s.regs with resA := BitVec.ofNat 64 t.a, resB := BitVec.ofNat 20 t.b, resC := BitVec.ofNat 20 t.c } := rfl
@[simp] theorem writeTriple_params (s : State) (t : Triple) : (writeTriple s t).params = s.params := rfl
@[simp] theorem writeTriple_host (s : State) (t : Triple) : (writeTriple s t).host = s.host := rfl
@[simp] theorem writeTriple_port (s : State) (t : Triple) : (writeTriple s t).port = s.port := rfl
@[simp] theorem writeTriple_events (s : State) (t : Triple) : (writeTriple s t).events = s.events := rfl

end Sys2Proof.Machine
end

