-- ==== Sys2Proof/Laws/Ops.lean ====
section
/-! SUPPORT. What each shared operation can do, said once: the divider's fraction, the port transactions, the field update and
the end of an encoder command. -/

namespace Sys2Proof.Machine

/-! ### Arithmetic -/

theorem fpdFraction_fst (n d f : Nat) : (fpdFraction n d f).1 = (n % d * f) / d := rfl

theorem fpdFraction_snd (n d f : Nat) : (fpdFraction n d f).2 = if (n % d * f) / d = 0 then 1 else f := by
  simp only [fpdFraction, ne_eq, ite_not]

/-- The numerator stays below the denominator it was computed for, and is 0 for denominator 0 (R90). -/
theorem fpdFraction_fst_lt {n d f : Nat} (hd : 0 < d) (hf : 0 < f) : (fpdFraction n d f).1 < f := by
  rw [fpdFraction_fst, Nat.div_lt_iff_lt_mul hd, Nat.mul_comm f d]
  exact Nat.mul_lt_mul_of_pos_right (Nat.mod_lt n hd) hf

theorem fpdFraction_fst_le (n d f : Nat) : (fpdFraction n d f).1 ≤ f := by
  rcases Nat.eq_zero_or_pos d with rfl | hd
  · simp [fpdFraction_fst]
  · rcases Nat.eq_zero_or_pos f with rfl | hf
    · simp [fpdFraction_fst]
    · exact (fpdFraction_fst_lt hd hf).le

theorem fpdFraction_snd_le (n d f : Nat) : (fpdFraction n d f).2 ≤ max 1 f := by
  rw [fpdFraction_snd]; split <;> omega

theorem clamp_of_mem {v lo hi : Nat} (h1 : lo ≤ v) (h2 : v ≤ hi) : clamp v lo hi = v := by
  rw [clamp, if_neg (by omega), if_neg (by omega)]

theorem clamp_mem {v lo hi : Nat} (h : lo ≤ hi) : lo ≤ clamp v lo hi ∧ clamp v lo hi ≤ hi := by
  unfold clamp; split_ifs <;> omega

/-! ### Sequences of port transactions -/

@[simp] theorem andThen_done {α β : Type} (v : α) (s : State) (k : α → State → PortResult β) :
    andThen (.done v s) k = k v s := rfl

@[simp] theorem andThen_failed {α β : Type} (a : Byte) (s : State) (k : α → State → PortResult β) :
    andThen (.failed a s) k = .failed a s := rfl

@[simp] theorem andThen_unanswered {α β : Type} (s : State) (k : α → State → PortResult β) :
    andThen (.unanswered s) k = .unanswered s := rfl

/-- `t` is `s` after port transactions `l`: nothing but the port's answers and the events differs. -/
def Issued (s t : State) (l : List Event) : Prop :=
  t.regs = s.regs ∧ t.params = s.params ∧ t.host = s.host ∧ t.events = s.events ++ l ∧ l.all isPortEvent = true

/-- How a sequence of transactions begun in `s` can end (R153, R184, R189): all succeeded; all but the last, which failed at
the reported address; all but the last, which is never answered. -/
def EndsWell {α : Type} (s : State) : PortResult α → Prop
  | .done _ t => ∃ l, Issued s t l ∧ ∀ x ∈ l, succeeded x
  | .failed a t => ∃ l e, Issued s t (l ++ [e]) ∧ (∀ x ∈ l, succeeded x) ∧ failedAt e a
  | .unanswered t => ∃ l e, Issued s t (l ++ [e]) ∧ (∀ x ∈ l, succeeded x) ∧ neverAnswered e = true

theorem issued_refl (s : State) : Issued s s [] := by simp [Issued]

theorem issued_trans {s t u : State} {l m : List Event} (h : Issued s t l) (k : Issued t u m) : Issued s u (l ++ m) := by
  obtain ⟨h1, h2, h3, h4, h5⟩ := h
  obtain ⟨k1, k2, k3, k4, k5⟩ := k
  exact ⟨k1.trans h1, k2.trans h2, k3.trans h3, by rw [k4, h4, List.append_assoc], by simp [h5, k5]⟩

/-- A read transaction: answered with a byte, failed at its address, or never answered (R53). -/
theorem memRead_endsWell (addr : Byte) (s : State) : EndsWell s (memRead addr s) := by
  unfold memRead
  split
  · exact ⟨[], .portRead addr none, by simp [Issued, isPortEvent], by simp, rfl⟩
  · rename_i d _ _
    exact ⟨[.portRead addr (some (.ok d))], by simp [Issued, isPortEvent], by simp [succeeded]⟩
  · exact ⟨[], .portRead addr (some .fail), by simp [Issued, isPortEvent], by simp, Or.inl rfl⟩

/-- A write transaction: done, failed at its address, or never answered (R54). -/
theorem memWrite_endsWell (addr : Byte) (payload : List Byte) (s : State) : EndsWell s (memWrite addr payload s) := by
  unfold memWrite
  split
  · exact ⟨[], .portWrite addr payload none, by simp [Issued, isPortEvent], by simp, rfl⟩
  · exact ⟨[.portWrite addr payload (some .ok)], by simp [Issued, isPortEvent], by simp [succeeded]⟩
  · exact ⟨[], .portWrite addr payload (some .fail), by simp [Issued, isPortEvent], by simp, Or.inr ⟨payload, rfl⟩⟩

/-- One sequence after another: the whole ends well if the first does and the second does from where the first is done. -/
theorem andThen_endsWell {α β : Type} {s : State} {r : PortResult α} {k : α → State → PortResult β}
    (hr : EndsWell s r) (hk : ∀ v t, EndsWell t (k v t)) : EndsWell s (andThen r k) := by
  cases r with
  | failed a t => exact hr
  | unanswered t => exact hr
  | done v t =>
    obtain ⟨l, hl, hs⟩ := hr
    have h := hk v t
    simp only [andThen_done]
    cases hkv : k v t with
    | done w u =>
      rw [hkv] at h
      obtain ⟨m, hm, ht⟩ := h
      exact ⟨l ++ m, issued_trans hl hm, fun x hx => (List.mem_append.mp hx).elim (hs x) (ht x)⟩
    | failed a u =>
      rw [hkv] at h
      obtain ⟨m, e, hm, ht, he⟩ := h
      exact ⟨l ++ m, e, by simpa using issued_trans hl hm, fun x hx => (List.mem_append.mp hx).elim (hs x) (ht x), he⟩
    | unanswered u =>
      rw [hkv] at h
      obtain ⟨m, e, hm, ht, he⟩ := h
      exact ⟨l ++ m, e, by simpa using issued_trans hl hm, fun x hx => (List.mem_append.mp hx).elim (hs x) (ht x), he⟩

theorem updateField_endsWell (loc : Option FieldLoc) (w : Nat) (v : Byte) (s : State) :
    EndsWell s (updateField loc w v s) := by
  cases loc with
  | none => exact ⟨[], issued_refl s, by simp⟩
  | some l => exact andThen_endsWell (memRead_endsWell l.addr s) fun old t => memWrite_endsWell _ _ t

/-- Everything the end of an encoder command can be: a next state only where no transaction stayed unanswered, with STATUS
written and nothing else changed but the port and the events. -/
theorem endPortCommand_cases {s : State} {r : PortResult Unit} (hr : EndsWell s r) :
    (∃ t l, endPortCommand r = .next (complete {} t) ∧ Issued s t l ∧ ∀ x ∈ l, succeeded x) ∨
    (∃ a t l e, endPortCommand r = .next (raise .portError a t) ∧ Issued s t (l ++ [e]) ∧ (∀ x ∈ l, succeeded x) ∧
      failedAt e a) ∨
    ∃ t l e, endPortCommand r = .fault (.portNeverAnswers t) ∧ Issued s t (l ++ [e]) ∧ (∀ x ∈ l, succeeded x) ∧
      neverAnswered e = true := by
  cases r with
  | done v t => obtain ⟨l, h⟩ := hr; exact Or.inl ⟨t, l, rfl, h⟩
  | failed a t => obtain ⟨l, e, h⟩ := hr; exact Or.inr (Or.inl ⟨a, t, l, e, rfl, h⟩)
  | unanswered t => obtain ⟨l, e, h⟩ := hr; exact Or.inr (Or.inr ⟨t, l, e, rfl, h⟩)

end Sys2Proof.Machine
end

