-- ==== Sys2Proof/Laws/Commands.lean ====
section
/-! SUPPORT. What each command and each access can do, said once: an erring command is a `raise`, a completed one a
`complete` of the registers of its row of R76. -/

namespace Sys2Proof.Machine

theorem execSolve_cases (s : State) :
    (s.regs.opb = 0 ∧ execSolve s = .next (raise .zeroDivisor 0 s)) ∨
    (s.regs.opb ≠ 0 ∧ ∃ t, t = fpd s.regs.opa.toNat s.regs.opb.toNat s.regs.opf.toNat ∧
      execSolve s = .next (complete { intMode := t.b == 0 } (writeTriple s t))) := by
  by_cases h : s.regs.opb = 0
  · exact Or.inl ⟨h, by simp [execSolve, h]⟩
  · have h' : s.regs.opb.toNat ≠ 0 := fun e => h (BitVec.eq_of_toNat_eq (by simpa using e))
    exact Or.inr ⟨h, _, rfl, by simp only [execSolve, if_neg h']⟩

theorem execCorrectRef_cases (s : State) :
    execCorrectRef s = .next (raise .refRange 0 s) ∨ ∃ v, execCorrectRef s = .next (complete {} (setRefEff s v)) := by
  unfold execCorrectRef
  dsimp only
  split
  · exact Or.inr ⟨_, rfl⟩
  · exact Or.inl rfl

theorem execPlanPll_cases (s : State) :
    execPlanPll s = .next (raise .zeroDivisor 0 s) ∨ execPlanPll s = .next (raise .overflow 0 s) ∨
    ∃ f t v, execPlanPll s = .next (complete f (setResFreq (writeTriple s t) v)) := by
  unfold execPlanPll
  dsimp only
  split
  · exact Or.inl rfl
  · split
    · exact Or.inr (Or.inl rfl)
    · exact Or.inr (Or.inr ⟨_, _, _, rfl⟩)

theorem execPlanMs_cases (aux : Bool) (s : State) :
    execPlanMs aux s = .next (raise .zeroDivisor 0 s) ∨
    ∃ f t v, execPlanMs aux s = .next (complete f (setResFreq (writeTriple s t) v)) := by
  unfold execPlanMs
  split
  · exact Or.inl rfl
  · exact Or.inr ⟨_, _, _, rfl⟩

theorem execSelectRdiv_cases (s : State) :
    ∃ c v, execSelectRdiv s = .next (complete {} (setResFreq (setResRdiv s c) v)) := ⟨_, _, rfl⟩

theorem execEncodeTriple_endsWell (base : Byte) (s : State) :
    ∃ r, EndsWell s r ∧ execEncodeTriple base s = endPortCommand r := ⟨_, memWrite_endsWell _ _ s, rfl⟩

theorem execEncodeAux_cases (base : Byte) (s : State) :
    execEncodeAux base s = .next (raise .operandRange 0 s) ∨
    ∃ r, EndsWell s r ∧ execEncodeAux base s = endPortCommand r := by
  unfold execEncodeAux
  split
  · exact Or.inl rfl
  · exact Or.inr ⟨_, memWrite_endsWell _ _ s, rfl⟩

theorem execEncodeCtrl_endsWell (ch : Channel) (s : State) :
    ∃ r, EndsWell s r ∧ execEncodeCtrl ch s = endPortCommand r :=
  ⟨_, andThen_endsWell (updateField_endsWell _ _ _ s)
    (fun _ _ => andThen_endsWell (updateField_endsWell _ _ _ _) fun _ t => updateField_endsWell _ _ _ t), rfl⟩

/-- Every command from every state: an error that writes STATUS alone, a success without transactions, or the end of a
sequence of port transactions. -/
theorem exec_cases (i : Instr) (s : State) :
    (∃ e, e ≠ ErrCode.portError ∧ e ≠ ErrCode.ok ∧ exec i s = .next (raise e 0 s)) ∨
    (usesPort i = false ∧ ∃ f t, exec i s = .next (complete f t) ∧ t.params = s.params ∧ t.host = s.host ∧
      t.port = s.port ∧ t.events = s.events) ∨
    (usesPort i = true ∧ ∃ r, EndsWell s r ∧ exec i s = endPortCommand r) := by
  cases i with
  | nop => exact Or.inr (Or.inl ⟨rfl, {}, s, rfl, rfl, rfl, rfl, rfl⟩)
  | correctRef =>
    rcases execCorrectRef_cases s with h | ⟨v, h⟩
    · exact Or.inl ⟨_, by decide, by decide, h⟩
    · exact Or.inr (Or.inl ⟨rfl, _, _, h, rfl, rfl, rfl, rfl⟩)
  | solve =>
    rcases execSolve_cases s with ⟨-, h⟩ | ⟨-, t, -, h⟩
    · exact Or.inl ⟨_, by decide, by decide, h⟩
    · exact Or.inr (Or.inl ⟨rfl, _, _, h, rfl, rfl, rfl, rfl⟩)
  | planPll =>
    rcases execPlanPll_cases s with h | h | ⟨f, t, v, h⟩
    · exact Or.inl ⟨_, by decide, by decide, h⟩
    · exact Or.inl ⟨_, by decide, by decide, h⟩
    · exact Or.inr (Or.inl ⟨rfl, _, _, h, rfl, rfl, rfl, rfl⟩)
  | planMs aux =>
    rcases execPlanMs_cases aux s with h | ⟨f, t, v, h⟩
    · exact Or.inl ⟨_, by decide, by decide, h⟩
    · exact Or.inr (Or.inl ⟨rfl, _, _, h, rfl, rfl, rfl, rfl⟩)
  | selectRdiv => exact Or.inr (Or.inl ⟨rfl, _, _, rfl, rfl, rfl, rfl, rfl⟩)
  | encodeTriple base => exact Or.inr (Or.inr ⟨rfl, execEncodeTriple_endsWell base s⟩)
  | encodeAux base =>
    rcases execEncodeAux_cases base s with h | h
    · exact Or.inl ⟨_, by decide, by decide, h⟩
    · exact Or.inr (Or.inr ⟨rfl, h⟩)
  | encodeCtrl ch => exact Or.inr (Or.inr ⟨rfl, execEncodeCtrl_endsWell ch s⟩)

/-- What a step is, by the host's next access (R20, R22, R23, R25, R202). -/
theorem step_of_host_nil {s : State} (h : s.host = []) : step s = .next s := by
  simp [step, hostStep, h]

theorem step_of_host_cons {s : State} {a : HostAccess} {rest : List HostAccess} (h : s.host = a :: rest) :
    step s = perform a (setHost s rest) := by
  simp [step, hostStep, h]

end Sys2Proof.Machine
end

