-- ==== Sys2Proof/Laws/Decode.lean ====
section
/-! SUPPORT. The fields of a command word, read and written: what each field function gives on an assembled word, what a
masked comparison says of the fields, and what a decoding says of them. -/

namespace Sys2Proof

/-- Two words are equal iff their bits are. -/
theorem eq_iff_bits {n : Nat} (x y : BitVec n) : x = y ↔ ∀ i < n, x.getLsbD i = y.getLsbD i :=
  ⟨fun h _ _ => by rw [h], fun h => BitVec.eq_of_getLsbD_eq h⟩

@[simp] theorem opField_commandWord (op : BitVec 4) (aux : Bool) (ch : Channel) (base : Byte) :
    opField (commandWord op aux ch base) = op := by
  rw [eq_iff_bits]; intro i hi
  interval_cases i <;> simp [commandWord, opField]

@[simp] theorem baseField_commandWord (op : BitVec 4) (aux : Bool) (ch : Channel) (base : Byte) :
    baseField (commandWord op aux ch base) = base := by
  rw [eq_iff_bits]; intro i hi
  interval_cases i <;> simp [commandWord, baseField]

@[simp] theorem chField_commandWord (op : BitVec 4) (aux : Bool) (ch : Channel) (base : Byte) :
    chField (commandWord op aux ch base) = ch := by
  rw [eq_iff_bits]; intro i hi
  interval_cases i <;> simp [commandWord, chField]

@[simp] theorem auxField_commandWord (op : BitVec 4) (aux : Bool) (ch : Channel) (base : Byte) :
    auxField (commandWord op aux ch base) = aux := by
  simp [commandWord, auxField]

@[simp] theorem reservedBitsClear_commandWord (op : BitVec 4) (aux : Bool) (ch : Channel) (base : Byte) :
    reservedBitsClear (commandWord op aux ch base) = true := by
  simp only [reservedBitsClear, beq_iff_eq]
  rw [eq_iff_bits]; intro i hi
  interval_cases i <;> simp [commandWord]

theorem reservedBitsClear_iff (w : CmdWord) : reservedBitsClear w = true ↔ ∀ i < 16, w.getLsbD (16 + i) = false := by
  simp only [reservedBitsClear, beq_iff_eq]
  rw [eq_iff_bits]
  refine forall₂_congr fun i hi => ?_
  simp [hi]

/-- A word under the mask of a row with no operand field (R81). -/
theorem and_opMask_iff (w : CmdWord) (op : BitVec 4) :
    w &&& 0xFFFF000F = commandWord op false 0 0 ↔ reservedBitsClear w = true ∧ opField w = op := by
  rw [reservedBitsClear_iff, eq_iff_bits, eq_iff_bits]
  constructor
  · intro h
    refine ⟨fun i hi => ?_, fun i hi => ?_⟩
    · have := h (16 + i) (by omega)
      interval_cases i <;> simpa [commandWord] using this
    · have := h i (by omega)
      interval_cases i <;> simpa [commandWord, opField] using this
  · rintro ⟨h1, h2⟩ i hi
    rcases Nat.lt_or_ge i 4 with h | h
    · have := h2 i h
      interval_cases i <;> simpa [commandWord, opField] using this
    · rcases Nat.lt_or_ge i 16 with h' | h'
      · interval_cases i <;> simp [commandWord]
      · have := h1 (i - 16) (by omega)
        interval_cases i <;> simpa [commandWord] using this

/-- A word under the mask that also reads AUX. -/
theorem and_auxMask_iff (w : CmdWord) (op : BitVec 4) (aux : Bool) :
    w &&& 0xFFFF001F = commandWord op aux 0 0 ↔ reservedBitsClear w = true ∧ opField w = op ∧ auxField w = aux := by
  rw [reservedBitsClear_iff, eq_iff_bits, eq_iff_bits]
  constructor
  · intro h
    refine ⟨fun i hi => ?_, fun i hi => ?_, ?_⟩
    · have := h (16 + i) (by omega)
      interval_cases i <;> simpa [commandWord] using this
    · have := h i (by omega)
      interval_cases i <;> simpa [commandWord, opField] using this
    · simpa [commandWord, auxField] using h 4 (by omega)
  · rintro ⟨h1, h2, h3⟩ i hi
    rcases Nat.lt_or_ge i 4 with h | h
    · have := h2 i h
      interval_cases i <;> simpa [commandWord, opField] using this
    · rcases Nat.lt_or_ge i 16 with h' | h'
      · interval_cases i <;> simp_all [commandWord, auxField]
      · have := h1 (i - 16) (by omega)
        interval_cases i <;> simpa [commandWord] using this

/-- A word under the mask that also reads BASE. -/
theorem and_baseMask_iff (w : CmdWord) (op : BitVec 4) (base : Byte) :
    w &&& 0xFFFFFF0F = commandWord op false 0 base ↔ reservedBitsClear w = true ∧ opField w = op ∧ baseField w = base := by
  rw [reservedBitsClear_iff, eq_iff_bits, eq_iff_bits, eq_iff_bits]
  constructor
  · intro h
    refine ⟨fun i hi => ?_, fun i hi => ?_, fun i hi => ?_⟩
    · have := h (16 + i) (by omega)
      interval_cases i <;> simpa [commandWord] using this
    · have := h i (by omega)
      interval_cases i <;> simpa [commandWord, opField] using this
    · have := h (8 + i) (by omega)
      interval_cases i <;> simpa [commandWord, baseField] using this
  · rintro ⟨h1, h2, h3⟩ i hi
    rcases Nat.lt_or_ge i 4 with h | h
    · have := h2 i h
      interval_cases i <;> simpa [commandWord, opField] using this
    · rcases Nat.lt_or_ge i 8 with h' | h'
      · interval_cases i <;> simp [commandWord]
      · rcases Nat.lt_or_ge i 16 with h'' | h''
        · have := h3 (i - 8) (by omega)
          interval_cases i <;> simpa [commandWord, baseField] using this
        · have := h1 (i - 16) (by omega)
          interval_cases i <;> simpa [commandWord] using this

/-- A word under the mask that also reads CH. -/
theorem and_chMask_iff (w : CmdWord) (op : BitVec 4) (ch : Channel) :
    w &&& 0xFFFF00EF = commandWord op false ch 0 ↔ reservedBitsClear w = true ∧ opField w = op ∧ chField w = ch := by
  rw [reservedBitsClear_iff, eq_iff_bits, eq_iff_bits, eq_iff_bits]
  constructor
  · intro h
    refine ⟨fun i hi => ?_, fun i hi => ?_, fun i hi => ?_⟩
    · have := h (16 + i) (by omega)
      interval_cases i <;> simpa [commandWord] using this
    · have := h i (by omega)
      interval_cases i <;> simpa [commandWord, opField] using this
    · have := h (5 + i) (by omega)
      interval_cases i <;> simpa [commandWord, chField] using this
  · rintro ⟨h1, h2, h3⟩ i hi
    rcases Nat.lt_or_ge i 4 with h | h
    · have := h2 i h
      interval_cases i <;> simpa [commandWord, opField] using this
    · rcases Nat.lt_or_ge i 5 with h' | h'
      · interval_cases i; simp [commandWord]
      · rcases Nat.lt_or_ge i 8 with h'' | h''
        · have := h3 (i - 5) (by omega)
          interval_cases i <;> simpa [commandWord, chField] using this
        · rcases Nat.lt_or_ge i 16 with h3' | h3'
          · interval_cases i <;> simp [commandWord]
          · have := h1 (i - 16) (by omega)
            interval_cases i <;> simpa [commandWord] using this

/-- The operand fields of `i` are those of the word. -/
def operandsOf (w : CmdWord) : Instr → Prop
  | .nop => True
  | .correctRef => True
  | .solve => True
  | .planPll => True
  | .planMs aux => auxField w = aux
  | .selectRdiv => True
  | .encodeTriple base => baseField w = base
  | .encodeAux base => baseField w = base
  | .encodeCtrl ch => chField w = ch

/-- What a decoding says of the word's fields. -/
theorem decode_eq_ok_iff (w : CmdWord) (i : Instr) :
    decode w = .ok i ↔ reservedBitsClear w = true ∧ opField w = opcode i ∧ operandsOf w i := by
  unfold decode
  cases reservedBitsClear w with
  | false => simp
  | true =>
    generalize opField w = op
    rcases op with ⟨⟨n, hn⟩⟩
    have : n < 16 := hn
    interval_cases n <;> cases i <;> simp [BitVec.toNat, opcode, operandsOf]

end Sys2Proof
end

