-- ==== Sys2Proof/Laws/PerInstr.lean ====
section
/-! SUPPORT. One lemma per command about its encoding: `encode` writes a legal command word (30_encoding.md R74, R75) with the
operation's OP (R72), and the opcode table's row selects it (R81). -/

namespace Sys2Proof.Laws

/-- The encoded word is legal, its OP is the operation's, and it keeps no bit outside the fields the operation reads. -/
def EncodesLegally.Statement (i : Instr) : Prop :=
  legalCommandWord (encode i) = true ∧ opField (encode i) = opcode i ∧ encode i &&& readMask i = encode i

theorem EncodesLegally.nop : EncodesLegally.Statement .nop := by unfold Statement; decide
theorem EncodesLegally.correctRef : EncodesLegally.Statement .correctRef := by unfold Statement; decide
theorem EncodesLegally.solve : EncodesLegally.Statement .solve := by unfold Statement; decide
theorem EncodesLegally.planPll : EncodesLegally.Statement .planPll := by unfold Statement; decide
theorem EncodesLegally.planMs (aux : Bool) : EncodesLegally.Statement (.planMs aux) := by
  unfold Statement; revert aux; decide
theorem EncodesLegally.selectRdiv : EncodesLegally.Statement .selectRdiv := by unfold Statement; decide

/-- A word assembled from fields is legal when its OP is assigned. -/
theorem legal_commandWord (op : BitVec 4) (aux : Bool) (ch : Channel) (base : Byte) (h : op.toNat ≤ 8) :
    legalCommandWord (commandWord op aux ch base) = true := by
  have h' : opAssigned (commandWord op aux ch base) = true := by
    show decide ((opField (commandWord op aux ch base)).toNat ≤ 8) = true
    rw [opField_commandWord]; exact decide_eq_true h
  rw [legalCommandWord, reservedBitsClear_commandWord, h']; rfl

/-- A word assembled with a base address has no bit outside OP, BASE and the reserved bits, and no reserved bit set. -/
theorem commandWord_base_keeps (op : BitVec 4) (base : Byte) :
    commandWord op false 0 base &&& 0xFFFFFF0F = commandWord op false 0 base := by
  rw [eq_iff_bits]; intro i hi
  interval_cases i <;> simp [commandWord]

theorem EncodesLegally.encodeTriple (base : Byte) : EncodesLegally.Statement (.encodeTriple base) :=
  ⟨legal_commandWord _ _ _ _ (by simp [opcode]), opField_commandWord _ _ _ _, commandWord_base_keeps _ _⟩

theorem EncodesLegally.encodeAux (base : Byte) : EncodesLegally.Statement (.encodeAux base) :=
  ⟨legal_commandWord _ _ _ _ (by simp [opcode]), opField_commandWord _ _ _ _, commandWord_base_keeps _ _⟩

theorem EncodesLegally.encodeCtrl (ch : Channel) : EncodesLegally.Statement (.encodeCtrl ch) := by
  unfold Statement; revert ch; decide

end Sys2Proof.Laws
end

