-- ==== Sys2Proof/Tests/Slice0.lean ====
section
/-! SUPPORT. Tests of the model on small states. The expected values are those of 95_test_vectors.md, named by their ids there,
of the worked examples of the rules, or words written out from the field table 30_encoding.md R71. The `witness` theorems show
concrete states and operands that meet the hypotheses of the statements, at the boundaries of their clauses. -/

namespace Sys2Proof.Tests

open Sys2Proof Sys2Proof.Machine

/-! ### Helpers -/

/-- No field is present. -/
def absentLocs : ChannelLocs := { int := none, rdiv := none, div4 := none }

/-- The illustrative locations of 95_test_vectors.md for channel 0. -/
def exampleLocs : ChannelLocs :=
  { int := some { addr := 0x10, shift := 6 }, rdiv := some { addr := 0x2C, shift := 4 }
    div4 := some { addr := 0x2C, shift := 2 } }

/-- FREQ_MULT = 1, channel 0 as the vectors have it, the other channels without fields. -/
def params1 : Params :=
  { freqMult := 1
    locs := #v[exampleLocs, absentLocs, absentLocs, absentLocs, absentLocs, absentLocs, absentLocs, absentLocs]
    portAutoinc := true }

/-- A state on these registers, with these port answers and host accesses. -/
def st (r : Regs) (reads : List ReadAnswer := []) (writes : List WriteAnswer := []) (host : List HostAccess := []) : State :=
  { regs := r, params := params1, host := host, port := { reads := reads, writes := writes }, events := [] }

/-- A, B, C, RES_FREQ and STATUS of a next state. -/
def planned (o : Host.Outcome State Fault Refusal) : Option (Nat × Nat × Nat × Nat × BitVec 16) :=
  match o with
  | .next t => some (t.regs.resA.toNat, t.regs.resB.toNat, t.regs.resC.toNat, t.regs.resFreq.toNat, t.regs.status)
  | .fault _ => none
  | .refused _ => none

/-- Events and STATUS of a next state. -/
def emitted (o : Host.Outcome State Fault Refusal) : Option (List Event × BitVec 16) :=
  match o with
  | .next t => some (t.events, t.regs.status)
  | .fault _ => none
  | .refused _ => none

/-- The registers of a next state. -/
def regsAfter (o : Host.Outcome State Fault Refusal) : Option Regs :=
  match o with
  | .next t => some t.regs
  | .fault _ => none
  | .refused _ => none

/-- The registers of reset with these operands A and B. -/
def ab (a b : BitVec 64) : Regs := { Regs.reset with opa := a, opb := b }

/-- The registers of reset with this REF_EFF and operand A. -/
def refA (ref a : BitVec 64) : Regs := { Regs.reset with refEff := ref, opa := a }

/-! ### Well-formedness: each check refuses an ill-formed term -/

theorem test_wf_refuses_bit16 : reservedBitsClear 0x00010002 = false := by decide
theorem test_wf_refuses_bit31 : reservedBitsClear 0x80000000 = false := by decide
theorem test_wf_refuses_op9 : opAssigned 0x00000009 = false := by decide
theorem test_wf_refuses_op15 : legalCommandWord 0x0000000F = false := by decide
theorem test_wf_refuses_reserved_bit_word : legalCommandWord 0x00010002 = false := by decide
theorem test_wf_refuses_freqMult_zero : freqMultInRange 0 = false := by decide
theorem test_wf_refuses_freqMult_above : freqMultInRange 20496382305 = false := by decide
theorem test_wf_accepts_freqMult_largest : freqMultInRange 20496382304 = true := by decide
theorem test_wf_refuses_int_past_bit7 : ({ absentLocs with int := some ⟨0x10, 8⟩ } : ChannelLocs).wf = false := by decide
theorem test_wf_refuses_rdiv_past_bit7 : ({ absentLocs with rdiv := some ⟨0x10, 6⟩ } : ChannelLocs).wf = false := by decide
theorem test_wf_refuses_div4_past_bit7 : ({ absentLocs with div4 := some ⟨0x10, 8⟩ } : ChannelLocs).wf = false := by decide
theorem test_wf_refuses_params_freqMult : ({ params1 with freqMult := 0 } : Params).wf = false := by decide
theorem test_wf_refuses_params_loc :
    ({ params1 with locs := params1.locs.set 7 { absentLocs with rdiv := some ⟨0, 6⟩ } } : Params).wf = false := by decide
theorem test_wf_accepts_params : params1.wf = true := by decide

/-! ### Decoding: words written out bit by bit, ignored fields (R73) set to 1 -/

theorem test_decode_nop : decode 0b0000000000000000_11111111_111_1_0000#32 = .ok .nop := by decide
theorem test_decode_correctRef : decode 0b0000000000000000_00000000_000_0_0001#32 = .ok .correctRef := by decide
theorem test_decode_solve : decode 0b0000000000000000_00000001_000_0_0010#32 = .ok .solve := by decide
theorem test_decode_planPll : decode 0b0000000000000000_11111111_111_0_0011#32 = .ok .planPll := by decide
theorem test_decode_planMs : decode 0b0000000000000000_00000000_000_0_0100#32 = .ok (.planMs false) := by decide
theorem test_decode_planMs_aux : decode 0b0000000000000000_00000000_110_1_0100#32 = .ok (.planMs true) := by decide
theorem test_decode_selectRdiv : decode 0b0000000000000000_00000000_000_1_0101#32 = .ok .selectRdiv := by decide
theorem test_decode_encodeTriple : decode 0b0000000000000000_10010110_011_1_0110#32 = .ok (.encodeTriple 0x96) := by decide
theorem test_decode_encodeAux : decode 0b0000000000000000_01011011_000_0_0111#32 = .ok (.encodeAux 0x5B) := by decide
theorem test_decode_encodeCtrl : decode 0b0000000000000000_11111111_110_1_1000#32 = .ok (.encodeCtrl 6) := by decide
theorem test_decode_op9 : decode 0x00000009#32 = .error .reservedOp := by decide
theorem test_decode_bit31 : decode 0x80000000#32 = .error .reservedBits := by decide
theorem test_encode_planMs_aux : encode (.planMs true) = 0x00000014 := by decide
theorem test_encode_triple : encode (.encodeTriple 0x1A) = 0x00001A06 := by decide
theorem test_tableWord_row : decodeTableWord 32 0x5A07 = some (.encodeAux 0x5A) := by decide

/-! ### The divider -/

/-- SV4: truncation, not rounding. -/
theorem test_solve_truncates :
    planned (exec .solve (st { ab 7 3 with opf := 1000000 })) = some (2, 333333, 1000000, 0, 0x0000) := by decide
/-- SV3: a zero divisor writes STATUS only. -/
theorem test_solve_zero : regsAfter (exec .solve (st { ab 100 0 with opf := 1000000, resA := 9 })) =
    some { ab 100 0 with opf := 1000000, resA := 9, status := 0x0002 } := by decide

/-- CR5: a negative correction. -/
theorem test_correctRef_negative :
    regsAfter (exec .correctRef (st { Regs.reset with refNom := 25000000, refPpb := 0xFFFFFC18 })) =
      some { Regs.reset with refNom := 25000000, refPpb := 0xFFFFFC18, refEff := 24999975 } := by decide
/-- CR10: the corrected value does not fit; REF_EFF is unchanged. -/
theorem test_correctRef_overflow :
    regsAfter (exec .correctRef (st { Regs.reset with refNom := 0xFFFFFFFFFFFFFFFF, refPpb := 1, refEff := 7 })) =
      some { Regs.reset with refNom := 0xFFFFFFFFFFFFFFFF, refPpb := 1, refEff := 7, status := 0x0003 } := by decide

/-- PL13: a corrected reference, the realized frequency truncated. -/
theorem test_planPll_fraction : planned (exec .planPll (st (refA 25000025 616000000))) =
    some (24, 639975, 1000000, 615999990, 0x0000) := by decide
/-- PL7: clamped; the fraction of the unclamped target is not used. -/
theorem test_planPll_clamp : planned (exec .planPll (st (refA 25000000 937500000))) =
    some (36, 0, 1, 900000000, 0x0050) := by decide

/-- MS7 and MS3: 7 forced to 6; 5 forced to 4, then the override. -/
theorem test_planMs_forced :
    planned (exec (.planMs false) (st (ab 128571428 0))) = some (6, 0, 1, 771428568, 0x0040) ∧
    planned (exec (.planMs false) (st (ab 160000000 0))) = some (0, 0, 1, 640000000, 0x0060) := by decide
/-- MS22 and MS25: the auxiliary clamp; ZERO_DIVISOR wins over divide-by-4. -/
theorem test_planMs_fixed :
    planned (exec (.planMs true) (st (ab 1000000 900000000))) = some (254, 6, 1000000, 900000000, 0x0010) ∧
    planned (exec (.planMs false) (st (ab 200000000 5))) = some (0, 0, 0, 0, 0x0002) := by decide

/-- RD6. -/
theorem test_selectRdiv : regsAfter (exec .selectRdiv (st (ab 10000 0))) =
    some { ab 10000 0 with resRdiv := 6, resFreq := 640000 } := by decide
/-- RD12: the last frequency of the last window. -/
theorem test_selectRdiv_last : regsAfter (exec .selectRdiv (st (ab 511999 0))) =
    some { ab 511999 0 with resRdiv := 1, resFreq := 1023998 } := by decide

/-! ### The encoder -/

/-- ET5: every field's bits are distinct. -/
theorem test_encodeTriple :
    emitted (exec (.encodeTriple 0x10) (st { Regs.reset with p1 := 0x2ABCD, p2 := 0x51234, p3 := 0xA9876 } [] [.ok])) =
      some ([.portWrite 0x10 [0x98, 0x76, 0x02, 0xAB, 0xCD, 0xA5, 0x12, 0x34] (some .ok)], 0x0000) := by decide
/-- ET9: the write fails. -/
theorem test_encodeTriple_fails :
    emitted (exec (.encodeTriple 0x1A) (st { Regs.reset with p1 := 24, p2 := 640000, p3 := 1000000 } [] [.fail])) =
      some ([.portWrite 0x1A [0x42, 0x40, 0x00, 0x00, 0x18, 0xF9, 0xC4, 0x00] (some .fail)], 0x1A06) := by decide

/-- EA4: 255 is written. -/
theorem test_encodeAux : emitted (exec (.encodeAux 0x5B) (st { Regs.reset with p1 := 255 } [] [.ok])) =
    some ([.portWrite 0x5B [0xFF] (some .ok)], 0x0000) := by decide
/-- EA5: 256 is refused before any transaction. -/
theorem test_encodeAux_range : emitted (exec (.encodeAux 0x5B) (st { Regs.reset with p1 := 256 } [] [.ok])) =
    some ([], 0x0005) := by decide

/-- EC2: the third read returns what the port draws, not what the block wrote. -/
theorem test_encodeCtrl :
    emitted (exec (.encodeCtrl 0)
      (st { Regs.reset with ctrl := 0b00010 } [.ok 0xFF, .ok 0xFF, .ok 0xFF] [.ok, .ok, .ok])) =
      some ([.portRead 0x10 (some (.ok 0xFF)), .portWrite 0x10 [0xBF] (some .ok),
        .portRead 0x2C (some (.ok 0xFF)), .portWrite 0x2C [0x8F] (some .ok),
        .portRead 0x2C (some (.ok 0xFF)), .portWrite 0x2C [0xFF] (some .ok)], 0x0000) := by decide
/-- EC6: the first write fails, and nothing follows. -/
theorem test_encodeCtrl_fails :
    emitted (exec (.encodeCtrl 0) (st { Regs.reset with ctrl := 0b11001 } [.ok 0x0F, .ok 0, .ok 0] [.fail, .ok, .ok])) =
      some ([.portRead 0x10 (some (.ok 0x0F)), .portWrite 0x10 [0x4F] (some .fail)], 0x1006) := by decide

/-! ### NOP, the reserved command, the host's accesses -/

/-- R170's example. -/
theorem test_nop : regsAfter (exec .nop (st { ab 5 6 with status := 0x0060 })) = some (ab 5 6) := by decide
/-- DC4: SOLVE with bit 16 set is illegal. -/
theorem test_illegal : regsAfter (step (st (ab 7 3) [] [] [.write 0x00 0x00010002])) =
    some { ab 7 3 with cmd := 0x00010002, status := 0x0001 } := by decide
/-- HA3 and HA4. -/
theorem test_host_truncates :
    regRead (regStore Regs.reset 0x08 0xFF) 0x08 = 0x1F ∧
    regRead (regStore Regs.reset 0x0A 0x1FFFFFFFF) 0x0A = 0xFFFFFFFFFFFFFFFF := by decide
/-- HA1, HA2 and HA5: RO registers and reserved indices ignore a write. -/
theorem test_host_ignored :
    regStore Regs.reset 0x0C 5 = Regs.reset ∧ regStore Regs.reset 0x20 7 = Regs.reset ∧
    regStore Regs.reset 0x01 0x1234 = Regs.reset := by decide
/-- Program 2's `ldctrl` (L3.2): STATUS 0x0040 gives CTRL 0x01. -/
theorem test_ldctrl : regsAfter (runStmt .ldctrl (st { Regs.reset with status := 0x0040 })) =
    some { Regs.reset with status := 0x0040, ctrl := 0x01 } := by decide
/-- With no host access pending the block waits and keeps its registers (R20, R196). -/
theorem test_waits (r : Regs) : step (st r) = .next (st r) := rfl
/-- The word `withFetchWord` places is run by the next step (DC3: PLAN_PLL with its ignored fields set). -/
theorem test_fetch : regsAfter (step ((st (ab 616000000 0)).withFetchWord 32 0x0000FFE3)) =
    some { ab 616000000 0 with cmd := 0x0000FFE3, status := 0x0002 } := by decide

/-! ### Witnesses: concrete states and operands that meet the hypotheses of the statements

Each is named after its statement. A statement with several clauses has a witness for each, at a boundary of its range. -/

/-- Port answers enough for one command. -/
def okReads : List ReadAnswer := [.ok 0x0F, .ok 0x00, .ok 0x60]

/-- Port answers enough for one command. -/
def okWrites : List WriteAnswer := [.ok, .ok, .ok]

theorem witness_EveryWordIsOneOperationOrIllegal :
    (0x00010000#32).toNat / 65536 ≠ 0 ∧ (0x0000FFFF#32).toNat / 65536 = 0 ∧
    9 ≤ (0x00000009#32).toNat % 16 ∧ (0x0000FFF8#32).toNat % 16 ≤ 8 := by decide

theorem witness_PlatformResetClearsTheRegistersOnly :
    (st (ab 7 3) [] [] [.reset, .read 0x02]).host = .reset :: [.read 0x02] := rfl

theorem witness_HostReadAfterHostWrite :
    0x0B ≤ (0x0B#8).toNat ∧ 0x0B ≤ (0xFF#8).toNat ∧ 0x11 ≤ (0x11#8).toNat ∧ 0x11 ≤ (0xFF#8).toNat := by decide

theorem witness_HostWriteChangesNoOtherRegister : (0x00#8) ≠ 0x0A ∧ (0x0A#8) ≠ 0x00 := by decide

theorem witness_HostWriteOutsideCmdOnlyStores :
    (st Regs.reset [] [] [.write 0x01 5]).host = .write 0x01 5 :: [] ∧ (0x01#8) ≠ 0x00 ∧
    (st Regs.reset [] [] [.write 0xFF 5]).host = .write 0xFF 5 :: [] ∧ (0xFF#8) ≠ 0x00 := ⟨rfl, by decide, rfl, by decide⟩

theorem witness_HostReadChangesNothing : (st (ab 7 3) [] [] [.read 0x02]).host = .read 0x02 :: [] := rfl

/-- The bits of the host value above bit 31 do not enter CMD (R22). -/
theorem witness_StepRunsTheDecodedCommand :
    (st (ab 7 3) [] [] [.write 0x00 0x2]).host = .write 0x00 0x2 :: [] ∧ decode ((0x2#64).setWidth 32) = .ok .solve ∧
    (st (ab 7 3) [] [] [.write 0x00 0xABCD000000F2]).host = .write 0x00 0xABCD000000F2 :: [] ∧
    decode ((0xABCD000000F2#64).setWidth 32) = .ok .solve := ⟨rfl, by decide, rfl, by decide⟩

theorem witness_ReservedCommandReportsIllegal :
    (st (ab 7 3) [] [] [.write 0x00 0x9]).host = .write 0x00 0x9 :: [] ∧ 9 ≤ (0x9#64).toNat % 16 ∧
    (st (ab 7 3) [] [] [.write 0x00 0x10002]).host = .write 0x00 0x10002 :: [] ∧ (0x10002#64).toNat % 2 ^ 32 / 65536 ≠ 0 :=
  ⟨rfl, by decide, rfl, by decide⟩

theorem witness_CommandsDoNotDependOnStatus :
    ∃ t, exec .nop (st { Regs.reset with status := 0x1006 }) = .next t := ⟨_, rfl⟩

theorem witness_EveryCommandLeavesALegalStatus :
    ∃ t, exec (.encodeCtrl 0) (st { Regs.reset with ctrl := 0x19 } okReads okWrites) = .next t := ⟨_, rfl⟩

theorem witness_ErringCommandWritesOnlyStatus :
    ∃ t, exec (.planMs false) (st (ab 200000000 5)) = .next t ∧ statusErr t.regs.status ≠ 0 := ⟨_, rfl, by decide⟩

theorem witness_CommandWritesOnlyItsRegisters :
    (∃ t, exec .solve (st { ab 7 3 with opf := 1000000 }) = .next t) ∧ RegName.resFreq ∉ writesRegs .solve ∧
    usesPort .solve = false := ⟨⟨_, rfl⟩, by decide, by decide⟩

theorem witness_CommandReadsOnlyItsRegisters :
    (∀ n ∈ readsRegs .selectRdiv, readReg { ab 10000 4 with cmd := 9 } n = readReg (st (ab 10000 0)).regs n) ∧
    ∃ t, exec .selectRdiv (st (ab 10000 0)) = .next t ∧ statusErr t.regs.status = 0 := ⟨by decide, _, rfl, by decide⟩

theorem witness_RefEffChangesOnlyByCorrectRef :
    (∃ t, step (st (refA 5 0) [] [] [.reset]) = .next t ∧ t.regs.refEff ≠ (5 : BitVec 64)) ∧
    ∃ t, step (st { Regs.reset with refNom := 1 } [] [] [.write 0x00 0x1]) = .next t ∧ t.regs.refEff ≠ (0 : BitVec 64) :=
  ⟨⟨_, rfl, by decide⟩, _, rfl, by decide⟩

theorem witness_StatusChangesOnlyByCommands :
    (∃ t, step (st { Regs.reset with status := 1 } [] [] [.reset]) = .next t ∧ t.regs.status ≠ (1 : BitVec 16)) ∧
    ∃ t, step (st Regs.reset [] [] [.write 0x00 0x9]) = .next t ∧ t.regs.status ≠ (0 : BitVec 16) :=
  ⟨⟨_, rfl, by decide⟩, _, rfl, by decide⟩

theorem witness_InvariantKeptByEveryStep :
    Inv (st (ab 7 3) [] [] [.write 0x00 0x2]) ∧ ∃ t, step (st (ab 7 3) [] [] [.write 0x00 0x2]) = .next t :=
  ⟨⟨by decide, by decide⟩, _, rfl⟩

theorem witness_EventsFormOneTotalOrder :
    (st Regs.reset [] [.ok] [.write 0x00 0x1A06, .read 0x01]).host = .write 0x00 0x1A06 :: [.read 0x01] ∧
    ∃ t, step (st Regs.reset [] [.ok] [.write 0x00 0x1A06, .read 0x01]) = .next t := ⟨rfl, _, rfl⟩

/-- Both disjuncts happen: a write that is answered, and one that never is. -/
theorem witness_OnlyAnUnansweredPortStopsTheBlock :
    (∃ t, step (st Regs.reset [] [.ok] [.write 0x00 0x1A06]) = .next t) ∧
    ∃ t, step (st Regs.reset [] [] [.write 0x00 0x1A06]) = .fault (.portNeverAnswers t) := ⟨⟨_, rfl⟩, _, rfl⟩

theorem witness_AnsweringPortLetsEveryStepEnd : portReady (st Regs.reset okReads okWrites [.write 0x00 0x8]) :=
  ⟨by decide, by decide⟩

theorem witness_PortErrorNamesTheFirstFailure :
    (∃ t, exec (.encodeCtrl 0) (st Regs.reset okReads [.ok, .fail]) = .next t ∧ statusErr t.regs.status = 6) ∧
    ∃ t, exec (.encodeCtrl 0) (st Regs.reset okReads okWrites) = .next t ∧ statusErr t.regs.status ≠ 6 :=
  ⟨⟨_, rfl, by decide⟩, _, rfl, by decide⟩

theorem witness_FpdBounds :
    0 < 3 ∧ 0 < 1000000 ∧ 0 < (fpd 7 3 1000000).b ∧ (fpd 7 3 1).b = 0 ∧ (fpd 7 3 0).b = 0 := by decide

theorem witness_FpdExactDivision : 0 < 1 ∧ 1 ∣ 7 ∧ 0 < 7 ∧ 7 ∣ 0 := by decide

theorem witness_SolveWritesTheDividerTriple :
    (st (ab 7 0)).regs.opb.toNat = 0 ∧ (st (ab 7 1)).regs.opb.toNat ≠ 0 ∧
    (st (ab 0xFFFFFFFFFFFFFFFF 0xFFFFFFFFFFFFFFFF)).regs.opb.toNat ≠ 0 := by decide

/-- The corrected value at 0, 1, 2^64 - 1 and 2^64 - 1 + 18446744073. -/
theorem witness_CorrectRefWritesTheCorrectedReference :
    (0 : Int) + Int.tdiv (5 * 0) 1000000000 < 1 ∧ 1 ≤ (1 : Int) + Int.tdiv (-1 * 1) 1000000000 ∧
    (18446744073709551615 : Int) + Int.tdiv (0 * 18446744073709551615) 1000000000 ≤ 2 ^ 64 - 1 ∧
    2 ^ 64 - 1 < (18446744073709551615 : Int) + Int.tdiv (1 * 18446744073709551615) 1000000000 := by decide

theorem witness_CorrectRefTwiceIsCorrectRefOnce :
    ∃ t, exec .correctRef (st { Regs.reset with refNom := 25000000, refPpb := 1000 }) = .next t ∧
      t.regs.refEff = (25000025 : BitVec 64) := ⟨_, rfl, by decide⟩

/-- REF_EFF 0, the largest REF_EFF that fits with target 0, and the next one, which overflows. -/
theorem witness_PlanPllWritesTheFeedbackTriple :
    (st (refA 0 5)).regs.refEff.toNat = 0 ∧
    768614336404564650 ≠ 0 ∧ (768614336404564650 * (24 * 1 + 0)) / 1 ≤ 2 ^ 64 - 1 ∧
    2 ^ 64 - 1 < (768614336404564651 * (24 * 1 + 0)) / 1 ∧
    (planned (exec .planPll (st (refA 768614336404564650 0)))).isSome = true ∧
    (planned (exec .planPll (st (refA 768614336404564651 0)))) = some (0, 0, 0, 0, 0x0004) := by decide

theorem witness_PlanPllRecoversIntegerFeedback :
    (st (refA 25000000 600000000)).regs.opa.toNat = (st (refA 25000000 600000000)).regs.refEff.toNat * 24 ∧
    (st (refA 1 36)).regs.opa.toNat = (st (refA 1 36)).regs.refEff.toNat * 36 ∧ 1 ≤ (st (refA 1 36)).regs.refEff.toNat := by
  decide

theorem witness_PlanPllRealizedFrequencyRange :
    (∃ t, exec .planPll (st (refA 25000000 924999999)) = .next t ∧ statusErr t.regs.status = 0 ∧
      statusClamped t.regs.status = false) ∧
    ∃ t, exec .planPll (st (refA 25000000 925000000)) = .next t ∧ statusErr t.regs.status = 0 ∧
      statusClamped t.regs.status = true := ⟨⟨_, rfl, by decide, by decide⟩, _, rfl, by decide, by decide⟩

/-- R103's inference fails at this state: REF_EFF = 100,000,000 and a target of 700,000,000 meet its conditions. -/
theorem witness_PlanPllVcoRangeAsR103InfersIt :
    (st (refA 100000000 700000000)).params.wf = true ∧
    (∃ t, exec .planPll (st (refA 100000000 700000000)) = .next t ∧ statusErr t.regs.status = 0) ∧
    600000000 * 1 ≤ (100000000#64).toNat * 24 ∧ 600000000 * 1 ≤ (700000000#64).toNat ∧
    (700000000#64).toNat ≤ 900000000 * 1 := ⟨by decide, ⟨_, rfl, by decide⟩, by decide, by decide, by decide⟩

/-- The realized frequency at that state, hand-calculated from R101: 24 × 100,000,000. -/
theorem test_planPll_above_vcoMax : planned (exec .planPll (st (refA 100000000 700000000))) =
    some (24, 0, 1, 2400000000, 0x0050) := by decide

theorem witness_PlanPllVcoRangeForAnUnclampedTarget :
    (∃ t, exec .planPll (st (refA 25000000 600000000)) = .next t ∧ statusErr t.regs.status = 0) ∧
    600000000 * (st (refA 25000000 600000000)).params.freqMult ≤ (25000000#64).toNat * 24 ∧
    (25000000#64).toNat * 24 ≤ (600000000#64).toNat ∧
    (900000000#64).toNat ≤ 900000000 * (st (refA 25000000 900000000)).params.freqMult :=
  ⟨⟨_, rfl, by decide⟩, by decide, by decide, by decide⟩

/-- PLL not fixed, the smallest PLL frequency that divides, and the largest that does not. -/
theorem witness_PlanMsWritesTheOutputTriple :
    (st (ab 500000 0)).params.wf = true ∧ (st (ab 500000 0)).regs.opb.toNat = 0 ∧ 5 / 6 = 0 ∧ 6 / 6 ≠ 0 ∧
    planned (exec (.planMs false) (st (ab 500000 5))) = some (0, 0, 0, 0, 0x0002) ∧
    planned (exec (.planMs true) (st (ab 500000 6))) = some (6, 0, 1, 6, 0x0050) := by decide

theorem witness_PlanMsZeroDivisorIffPllBelowSix :
    (5 : BitVec 64) ≠ 0 ∧ (6 : BitVec 64) ≠ 0 ∧ params1.wf = true ∧
    (∃ t, exec (.planMs false) (st (ab 200000000 5)) = .next t ∧ statusErr t.regs.status = 2) ∧
    ∃ t, exec (.planMs false) (st (ab 200000000 6)) = .next t ∧ statusErr t.regs.status = 0 :=
  ⟨by decide, by decide, by decide, ⟨_, rfl, by decide⟩, _, rfl, by decide⟩

theorem witness_PlanMsReturnsAPllFrequencyInTheVcoRange :
    params1.wf = true ∧ (st (ab 160000000 0)).regs.opb = 0 ∧ ∃ t, exec (.planMs true) (st (ab 160000000 0)) = .next t :=
  ⟨by decide, rfl, _, rfl⟩

theorem witness_DivideByFourOverridesTheTriple :
    params1.wf = true ∧
    (∃ t, exec (.planMs false) (st (ab 150000000 0)) = .next t ∧ statusErr t.regs.status = 0 ∧
      150000000 * 1 ≤ (150000000#64).toNat) ∧
    ∃ t, exec (.planMs false) (st (ab 149999999 900000000)) = .next t ∧ statusErr t.regs.status = 0 ∧
      (149999999#64).toNat < 150000000 * 1 := ⟨by decide, ⟨_, rfl, by decide, by decide⟩, _, rfl, by decide, by decide⟩

theorem witness_PlanMsRecoversExactMultiples :
    params1.wf = true ∧ 500000 * params1.freqMult ≤ (500000#64).toNat ∧ (149999999#64).toNat < 150000000 * params1.freqMult ∧
    (st (ab 149999999 899999994)).regs.opb.toNat = 6 * (149999999#64).toNat ∧
    (st (ab 500000 900000000)).regs.opb.toNat = 1800 * (500000#64).toNat ∧
    (st (ab 500000 127000000)).regs.opb.toNat = 254 * (500000#64).toNat := by decide

theorem witness_PlanMsReconstructsTheTarget :
    params1.wf = true ∧ (st (ab 500000 0)).regs.opb = 0 ∧ 500000 * params1.freqMult ≤ (500000#64).toNat ∧
    (149999999#64).toNat < 150000000 * params1.freqMult := by decide

/-- The lower clamp at pll = 36, the upper ones at 1800² and 254². -/
theorem witness_ClampedFixedTripleIsConsistent :
    (fixedTriple 36 1000000 false).isSome = true ∧ 36 / 1000000 < 6 ∧
    (fixedTriple 3240000 1 false).isSome = true ∧ 1800 < 3240000 / 1 ∧ 1800 ^ 2 ≤ 3240000 ∧
    (fixedTriple 64516 1 true).isSome = true ∧ 254 < 64516 / 1 ∧ 254 ^ 2 ≤ 64516 := by decide

theorem witness_AuxHasNoEffectWithThePllNotFixed : (st (ab 500000 0)).regs.opb = 0 := rfl

/-- The first and the last window at both ends, and the two sides outside. -/
theorem witness_SelectRdivChoosesTheWindow :
    params1.wf = true ∧ 4000 * params1.freqMult * 2 ^ 0 ≤ (4000#64).toNat ∧
    (7999#64).toNat < 4000 * params1.freqMult * 2 ^ (0 + 1) ∧ 4000 * params1.freqMult * 2 ^ 6 ≤ (256000#64).toNat ∧
    (511999#64).toNat < 4000 * params1.freqMult * 2 ^ (6 + 1) ∧ (3999#64).toNat < 4000 * params1.freqMult ∧
    4000 * params1.freqMult * 128 ≤ (512000#64).toNat := by decide

theorem witness_ScaledFrequencyLandsInTheOutputRange :
    params1.wf = true ∧ 4000 * params1.freqMult ≤ (4000#64).toNat ∧ (511999#64).toNat < 4000 * params1.freqMult * 128 ∧
    (∃ t, exec .selectRdiv (st (ab 4000 0)) = .next t) ∧ ∃ t, exec .selectRdiv (st (ab 511999 0)) = .next t :=
  ⟨by decide, by decide, by decide, ⟨_, rfl⟩, _, rfl⟩

theorem witness_PlannedTriplesFitTheEncoderRegisters :
    params1.wf = true ∧ (∃ t, exec (.planMs false) (st (ab 500000 0)) = .next t ∧ statusErr t.regs.status = 0) ∧
    ∃ t, exec .planPll (st (refA 1 36)) = .next t ∧ statusErr t.regs.status = 0 :=
  ⟨by decide, ⟨_, rfl, by decide⟩, _, rfl, by decide⟩

theorem witness_EncodeTripleWritesTheParameterBlock :
    (st Regs.reset [] [.ok]).port.writes = .ok :: [] ∧ (st Regs.reset [] [.fail]).port.writes = .fail :: [] := ⟨rfl, rfl⟩

theorem witness_ParameterBlockClearsTheNeighbouringBits :
    params1.portAutoinc = true ∧ (0x00#8).toNat ≤ 0xFD ∧ (0xFD#8).toNat ≤ 0xFD := by decide

theorem witness_EncodeAuxWritesOneByte :
    255 < (st { Regs.reset with p1 := 256 }).regs.p1.toNat ∧
    (st { Regs.reset with p1 := 255 } [] [.ok]).regs.p1.toNat ≤ 255 ∧
    (st { Regs.reset with p1 := 255 } [] [.ok]).port.writes = .ok :: [] ∧
    (st { Regs.reset with p1 := 0 } [] [.fail]).port.writes = .fail :: [] := by decide

/-- The widest field at its highest place, and a bit inside and outside it. -/
theorem witness_MergeChangesExactlyTheField : 5 + 3 ≤ 8 ∧ 0 + 8 ≤ 8 ∧ 7 < 8 ∧ 4 < 8 := by decide

/-- Channel 0 has three fields and channel 1 none. -/
theorem witness_EncodeCtrlUpdatesEachPresentField :
    (presentFields (channelLocs params1 0) 0x19).length = [0x0F#8, 0x00, 0x60].length ∧
    (st { Regs.reset with ctrl := 0x19 } okReads okWrites).port.reads = [0x0F#8, 0x00, 0x60].map ReadAnswer.ok ++ [] ∧
    (st { Regs.reset with ctrl := 0x19 } okReads okWrites).port.writes = List.replicate 3 WriteAnswer.ok ++ [] ∧
    (presentFields (channelLocs params1 1) 0x19).length = ([] : List Byte).length := by decide

/-- The first read fails; the last write fails. -/
theorem witness_EncodeCtrlEndsAtTheFirstFailure :
    ((presentFields (channelLocs params1 0) 0x19)[0]?).isSome = true ∧
    (st Regs.reset [.fail] []).port.reads = ([] : List Byte).map ReadAnswer.ok ++ .fail :: [] ∧
    (st Regs.reset [.fail] []).port.writes = List.replicate 0 WriteAnswer.ok ++ [] ∧
    ((presentFields (channelLocs params1 0) 0x19)[2]?).isSome = true ∧
    (st Regs.reset okReads [.ok, .ok, .fail]).port.reads = [0x0F#8, 0x00].map ReadAnswer.ok ++ .ok 0x60 :: [] ∧
    (st Regs.reset okReads [.ok, .ok, .fail]).port.writes = List.replicate 2 WriteAnswer.ok ++ .fail :: [] := by decide

end Sys2Proof.Tests
end

