-- ==== Sys2Proof/Proofs/Invariant.lean ====
section
/-! PROOFS of the family 00_scope: the invariant `Inv` (legal parameters, legal STATUS) holds at reset and every step keeps it.
First the fields of a STATUS word and the parameters at reset, then what a command and an access can leave, then the two
statements. -/

namespace Sys2Proof.Machine

/-! ### The fields of a STATUS word (10_state.md R26) -/

@[simp] theorem statusErr_statusWord (e : ErrCode) (f : Flags) (a : Byte) :
    statusErr (statusWord e f a) = errBits e := by
  rw [eq_iff_bits]; intro i hi
  interval_cases i <;> simp [statusErr, statusWord]

@[simp] theorem statusErrAddr_statusWord (e : ErrCode) (f : Flags) (a : Byte) :
    statusErrAddr (statusWord e f a) = a := by
  rw [eq_iff_bits]; intro i hi
  interval_cases i <;> simp [statusErrAddr, statusWord]

@[simp] theorem statusClamped_statusWord (e : ErrCode) (f : Flags) (a : Byte) :
    statusClamped (statusWord e f a) = f.clamped := by simp [statusClamped, statusWord]

@[simp] theorem statusDivBy4_statusWord (e : ErrCode) (f : Flags) (a : Byte) :
    statusDivBy4 (statusWord e f a) = f.divBy4 := by simp [statusDivBy4, statusWord]

@[simp] theorem statusIntMode_statusWord (e : ErrCode) (f : Flags) (a : Byte) :
    statusIntMode (statusWord e f a) = f.intMode := by simp [statusIntMode, statusWord]

@[simp] theorem statusReserved_statusWord (e : ErrCode) (f : Flags) (a : Byte) :
    statusReserved (statusWord e f a) = false := by simp [statusReserved, statusWord]

theorem errBits_le (e : ErrCode) : (errBits e).toNat ≤ 6 := by cases e <;> decide

/-! ### Legal STATUS words (R26, R27, R181) -/

theorem statusLegal_okStatus (f : Flags) : statusLegal (okStatus f) = true := by
  simp [statusLegal, okStatus, errBits]

/-- Only PORT_ERROR may come with an address (R181). -/
theorem statusLegal_errStatus {e : ErrCode} {a : Byte} (h : e = .portError ∨ a = 0) :
    statusLegal (errStatus e a) = true := by
  have haddr : errBits e = errBits .portError ∨ a = 0 := h.imp_left (congrArg errBits)
  simpa [statusLegal, errStatus, errBits_le] using haddr

theorem statusLegal_reset : statusLegal Regs.reset.status = true := by decide

/-! ### The parameters at reset (00_scope.md R5, R7) -/

/-- A free location fits when the last start bit allowed to it leaves room for the field. -/
theorem fieldFits_loc {n w : Nat} (h : n + w ≤ 9) (l : Option (Byte × Fin n)) : fieldFits w (Config.loc l) = true := by
  cases l with
  | none => rfl
  | some p =>
    have hp := p.2.isLt
    simp only [Config.loc, Option.map_some, fieldFits, decide_eq_true_eq]
    omega

theorem freqMultInRange_iff (n : Nat) : freqMultInRange n = true ↔ 1 ≤ n ∧ n ≤ Config.maxFreqMult := by
  simp [freqMultInRange]

theorem freqMultInRange_params : freqMultInRange Config.params.freqMult = true :=
  (freqMultInRange_iff _).mpr ⟨Nat.le_add_left 1 _, Config.freqMultPred.isLt⟩

theorem params_wf : Config.params.wf = true := by
  have hlocs : ∀ c ∈ Config.params.locs.toList, c.wf = true := by
    intro c hc
    obtain ⟨i, rfl⟩ : ∃ i : Fin 8, _ = c := by simpa [Config.params, List.mem_ofFn] using hc
    simp [ChannelLocs.wf, fieldFits_loc]
  rw [Params.wf, freqMultInRange_params, List.all_eq_true.mpr hlocs, Bool.and_self]

/-! ### What a command can leave -/

/-- `t` is the end of a command that kept the parameters of `s`: STATUS written on a state with those parameters, with an
address only where the port failed. -/
def EndsCommand (s t : State) : Prop :=
  ∃ u, u.params = s.params ∧
    ((∃ f, t = complete f u) ∨ ∃ e a, (e = .portError ∨ a = 0) ∧ t = raise e a u)

theorem EndsCommand.params_eq {s t : State} (h : EndsCommand s t) : t.params = s.params := by
  obtain ⟨u, hu, ⟨f, rfl⟩ | ⟨e, a, -, rfl⟩⟩ := h
  · exact hu
  · exact hu

theorem EndsCommand.statusLegal {s t : State} (h : EndsCommand s t) : statusLegal t.regs.status = true := by
  obtain ⟨u, -, ⟨f, rfl⟩ | ⟨e, a, ha, rfl⟩⟩ := h
  · exact statusLegal_okStatus f
  · exact statusLegal_errStatus ha

theorem endPortCommand_endsCommand {s t : State} {r : PortResult Unit} (hr : EndsWell s r)
    (h : endPortCommand r = .next t) : EndsCommand s t := by
  rcases endPortCommand_cases hr with ⟨u, l, hend, ⟨-, hu, -⟩, -⟩ | ⟨a, u, l, e, hend, ⟨-, hu, -⟩, -⟩ | ⟨u, l, e, hend, -⟩
  · exact ⟨u, hu, .inl ⟨{}, by simpa [hend] using h.symm⟩⟩
  · exact ⟨u, hu, .inr ⟨.portError, a, .inl rfl, by simpa [hend] using h.symm⟩⟩
  · simp [hend] at h

theorem exec_endsCommand {i : Instr} {s t : State} (h : exec i s = .next t) : EndsCommand s t := by
  rcases exec_cases i s with ⟨e, -, -, he⟩ | ⟨-, f, u, hu, hparams, -⟩ | ⟨-, r, hr, hend⟩
  · exact ⟨s, rfl, .inr ⟨e, 0, .inr rfl, by simpa [he] using h.symm⟩⟩
  · exact ⟨u, hparams, .inl ⟨f, by simpa [hu] using h.symm⟩⟩
  · exact endPortCommand_endsCommand hr (hend ▸ h)

/-- A word in CMD, legal or reserved, ends as a command does (R172). -/
theorem execWord_endsCommand {w : CmdWord} {s t : State} (h : execWord w s = .next t) : EndsCommand s t := by
  unfold execWord at h
  split at h
  · exact exec_endsCommand h
  · exact ⟨s, rfl, .inr ⟨.illegalCmd, 0, .inr rfl, by simpa [execReserved] using h.symm⟩⟩

/-! ### What an access can leave -/

/-- STATUS is read-only to the host (R22). -/
@[simp] theorem writeReg_status (r : Regs) (n : RegName) (v : HostWord) : (writeReg r n v).status = r.status := by
  cases n <;> rfl

@[simp] theorem regStore_status (r : Regs) (i : Byte) (v : HostWord) : (regStore r i v).status = r.status := by
  unfold regStore
  split
  · exact writeReg_status r _ v
  · rfl

@[simp] theorem storeHostWrite_params (i : Byte) (v : HostWord) (s : State) :
    (storeHostWrite i v s).params = s.params := rfl

@[simp] theorem storeHostWrite_status (i : Byte) (v : HostWord) (s : State) :
    (storeHostWrite i v s).regs.status = s.regs.status := regStore_status s.regs i v

/-- The parameters stay, and STATUS stays, is reset, or is what a command leaves (R27, R42, R173, R201). -/
theorem perform_cases {a : HostAccess} {s t : State} (h : perform a s = .next t) :
    t.params = s.params ∧
      (t.regs.status = s.regs.status ∨ t.regs.status = Regs.reset.status ∨ statusLegal t.regs.status = true) := by
  cases a with
  | write i v =>
    simp only [perform, hostWrite] at h
    split at h
    · have hend := execWord_endsCommand h
      exact ⟨hend.params_eq, .inr (.inr hend.statusLegal)⟩
    · cases h
      exact ⟨rfl, .inl (storeHostWrite_status i v s)⟩
  | read i =>
    cases h
    exact ⟨rfl, .inl rfl⟩
  | reset =>
    cases h
    exact ⟨rfl, .inr (.inl rfl)⟩

/-! ### The invariant -/

theorem perform_keeps_inv {a : HostAccess} {s t : State} (hs : Inv s) (h : perform a s = .next t) :
    Inv t ∧ t.params = s.params := by
  obtain ⟨hwf, hlegal⟩ := hs
  obtain ⟨hparams, hstatus⟩ := perform_cases h
  refine ⟨⟨hparams ▸ hwf, ?_⟩, hparams⟩
  rcases hstatus with hkept | hreset | hnew
  · exact hkept ▸ hlegal
  · exact hreset ▸ statusLegal_reset
  · exact hnew

/-- Settles O23: with no access pending the block waits, and every access keeps the parameters and a legal STATUS. -/
theorem invariantKeptByEveryStep : Obligations.InvariantKeptByEveryStep := by
  intro s t hs hstep
  cases hhost : s.host with
  | nil =>
    rw [step_of_host_nil hhost] at hstep
    cases hstep
    exact ⟨hs, rfl⟩
  | cons a rest =>
    rw [step_of_host_cons hhost] at hstep
    exact perform_keeps_inv (s := setHost s rest) hs hstep

/-- Settles O24: the bounds of the free values of Config are those of R5 and R7, and STATUS 0 is legal. -/
theorem invariantHoldsAtReset : Obligations.InvariantHoldsAtReset := ⟨params_wf, statusLegal_reset⟩

end Sys2Proof.Machine
end

/-! PROOFS of the family 10_state: the register file under host accesses, and STATUS and the frame of every command. First the
host's view of the registers, then what one access does, then the frame of a command and what it says of a step, and last that
no command depends on the STATUS it starts with. -/

namespace Sys2Proof.Machine

/-! ### The host's register indices (10_state.md R21) -/

@[simp] theorem regAt_regIndex (n : RegName) : regAt (regIndex n) = some n := by cases n <;> rfl

theorem regAt_eq_some_iff {i : Byte} {n : RegName} : regAt i = some n ↔ i = regIndex n := by
  constructor
  · intro h
    unfold regAt at h
    split at h <;> cases h <;> exact BitVec.eq_of_toNat_eq ‹_›
  · rintro rfl
    exact regAt_regIndex n

/-- The reserved indices name no register. -/
theorem regAt_of_reserved {i : Byte} (h : 0x11 ≤ i.toNat) : regAt i = none := by
  cases hi : regAt i with
  | none => rfl
  | some n =>
    rw [regAt_eq_some_iff.mp hi] at h
    cases n <;> exact absurd h (by decide)

theorem regRead_of_regAt_none {i : Byte} (h : regAt i = none) (r : Regs) : regRead r i = 0 := by simp [regRead, h]

theorem regRead_of_regAt_some {i : Byte} {n : RegName} (h : regAt i = some n) (r : Regs) : regRead r i = readReg r n := by
  simp [regRead, h]

theorem regStore_of_regAt_none {i : Byte} (h : regAt i = none) (r : Regs) (v : HostWord) : regStore r i v = r := by
  simp [regStore, h]

theorem regStore_of_regAt_some {i : Byte} {n : RegName} (h : regAt i = some n) (r : Regs) (v : HostWord) :
    regStore r i v = writeReg r n v := by simp [regStore, h]

theorem readReg_reset (n : RegName) : readReg Regs.reset n = 0 := by cases n <;> rfl

theorem regRead_reset (i : Byte) : regRead Regs.reset i = 0 := by
  cases hi : regAt i with
  | none => exact regRead_of_regAt_none hi _
  | some n => rw [regRead_of_regAt_some hi, readReg_reset]

/-! ### Host writes and reads (R22, R23) -/

/-- The registers from REF_EFF on are read-only to the host. -/
theorem writeReg_of_readOnly {n : RegName} (h : 0x0B ≤ (regIndex n).toNat) (r : Regs) (v : HostWord) :
    writeReg r n v = r := by
  cases n with
  | refEff | resA | resB | resC | resFreq | resRdiv => rfl
  | _ => exact absurd h (by decide)

theorem regStore_of_readOnly {i : Byte} (h : 0x0B ≤ i.toNat) (r : Regs) (v : HostWord) : regStore r i v = r := by
  cases hi : regAt i with
  | none => exact regStore_of_regAt_none hi r v
  | some n =>
    rw [regStore_of_regAt_some hi, writeReg_of_readOnly]
    rwa [← regAt_eq_some_iff.mp hi]

theorem readReg_writeReg_of_ne {m n : RegName} (h : m ≠ n) (r : Regs) (v : HostWord) :
    readReg (writeReg r n v) m = readReg r m := by
  cases n with
  | status | refEff | resA | resB | resC | resFreq | resRdiv => rfl
  | cmd | opa | opb | opf | p1 | p2 | p3 | ctrl | refNom | refPpb => cases m <;> simp [readReg, writeReg] at h ⊢

@[simp] theorem regStore_refEff (r : Regs) (i : Byte) (v : HostWord) : (regStore r i v).refEff = r.refEff := by
  cases hi : regAt i with
  | none => rw [regStore_of_regAt_none hi]
  | some n =>
    rw [regStore_of_regAt_some hi]
    cases n <;> rfl

/-- What a read returns of a value truncated to a register's width: the value's low bits. -/
theorem toNat_truncated {k : Nat} (hk : k ≤ 64) (v : HostWord) :
    ((v.setWidth k).setWidth 64).toNat = v.toNat % 2 ^ k := by
  rw [BitVec.toNat_setWidth_of_le hk, BitVec.toNat_setWidth]

/-- Settles O8: each index names its register, whose value is truncated on the write and extended on the read. -/
theorem hostReadAfterHostWrite : Obligations.HostReadAfterHostWrite := fun r v =>
  ⟨toNat_truncated (by decide) v, rfl, rfl, rfl, toNat_truncated (by decide) v, toNat_truncated (by decide) v,
    toNat_truncated (by decide) v, toNat_truncated (by decide) v, toNat_truncated (by decide) v, rfl,
    BitVec.toInt_signExtend_of_le (by decide), fun _ hi => regStore_of_readOnly hi r v,
    fun _ hi => regRead_of_regAt_none (regAt_of_reserved hi) r⟩

/-- Settles O9: two indices that name registers name different ones, and a reserved index neither stores nor changes. -/
theorem hostWriteChangesNoOtherRegister : Obligations.HostWriteChangesNoOtherRegister := by
  intro r i j v hij
  cases hi : regAt i with
  | none => rw [regStore_of_regAt_none hi]
  | some n =>
    cases hj : regAt j with
    | none => rw [regRead_of_regAt_none hj, regRead_of_regAt_none hj]
    | some m =>
      have hmn : m ≠ n := by
        rintro rfl
        exact hij ((regAt_eq_some_iff.mp hi).trans (regAt_eq_some_iff.mp hj).symm)
      rw [regStore_of_regAt_some hi, regRead_of_regAt_some hj, regRead_of_regAt_some hj, readReg_writeReg_of_ne hmn]

/-- Settles O6: a host read at reset returns a register, all of which are 0, or the 0 of a reserved index. -/
theorem resetLeavesEveryRegisterZero : Obligations.ResetLeavesEveryRegisterZero := ⟨regRead_reset, rfl⟩

/-! ### One host access -/

theorem hostWrite_of_ne_cmd {i : Byte} (h : i ≠ 0x00) (v : HostWord) (s : State) :
    hostWrite i v s = .next (storeHostWrite i v s) := if_neg h

theorem hostWrite_cmd (v : HostWord) (s : State) :
    hostWrite 0x00 v s = execWord (v.setWidth 32) (storeHostWrite 0x00 v s) := rfl

theorem execWord_of_decode_ok {w : CmdWord} {i : Instr} (h : decode w = .ok i) (s : State) :
    execWord w s = exec i s := by simp [execWord, h]

theorem execWord_of_decode_error {w : CmdWord} {e : DecodeError} (h : decode w = .error e) (s : State) :
    execWord w s = .next (raise .illegalCmd 0 s) := by simp [execWord, h, execReserved]

/-- Settles O7: the access is `platformReset`. -/
theorem platformResetClearsTheRegistersOnly : Obligations.PlatformResetClearsTheRegistersOnly := by
  intro s rest hhost
  rw [step_of_host_cons hhost]
  rfl

/-- Settles O10: the index is not that of CMD, so the storing part of the write is all of it. -/
theorem hostWriteOutsideCmdOnlyStores : Obligations.HostWriteOutsideCmdOnlyStores := by
  intro s i v rest hhost hi
  refine ⟨regStore_status s.regs i v, ?_⟩
  calc step s = hostWrite i v (setHost s rest) := step_of_host_cons hhost
    _ = .next (storeHostWrite i v (setHost s rest)) := hostWrite_of_ne_cmd hi v _

/-- Settles O11: the access is `hostRead`, which only records its event. -/
theorem hostReadChangesNothing : Obligations.HostReadChangesNothing := by
  intro s i rest hhost
  rw [step_of_host_cons hhost]
  rfl

/-- Settles O12: the word stored in CMD is the one that is decoded. -/
theorem stepRunsTheDecodedCommand : Obligations.StepRunsTheDecodedCommand := by
  intro s v rest i hhost hdecode
  calc step s = hostWrite 0x00 v (setHost s rest) := step_of_host_cons hhost
    _ = execWord (v.setWidth 32) (storeHostWrite 0x00 v (setHost s rest)) := hostWrite_cmd v _
    _ = exec i (storeHostWrite 0x00 v (setHost s rest)) := execWord_of_decode_ok hdecode _

theorem exec_planPll_of_refEff_zero {s : State} (h : s.regs.refEff = 0) :
    exec .planPll s = .next (raise .zeroDivisor 0 s) := by simp [exec, execPlanPll, h]

/-- Settles O29: the word decodes to PLAN_PLL, and REF_EFF is 0 at reset. -/
theorem planPllAfterResetIsZeroDivisor : Obligations.PlanPllAfterResetIsZeroDivisor := by
  have hdecode : decode (((tableWord 32 0x00000003).setWidth 64).setWidth 32) = .ok .planPll := by decide
  refine ⟨_, (stepRunsTheDecodedCommand _ _ _ _ rfl hdecode).trans (exec_planPll_of_refEff_zero rfl), ?_⟩
  rw [raise_regs]
  decide

/-- What a step can do to the registers: nothing (no access pending, or a read), a reset, the storing part of a host write, or
a command. -/
theorem step_regs_cases {s t : State} (h : step s = .next t) :
    t.regs = s.regs ∨ (∃ rest, s.host = .reset :: rest) ∨ (∃ i v, t.regs = regStore s.regs i v) ∨
    ∃ v rest, s.host = .write 0x00 v :: rest ∧
      execWord (v.setWidth 32) (storeHostWrite 0x00 v (setHost s rest)) = .next t := by
  cases hhost : s.host with
  | nil =>
    rw [step_of_host_nil hhost] at h
    cases h
    exact .inl rfl
  | cons a rest =>
    rw [step_of_host_cons hhost] at h
    cases a with
    | read i =>
      cases h
      exact .inl rfl
    | reset => exact .inr (.inl ⟨rest, rfl⟩)
    | write i v =>
      by_cases hi : i = 0x00
      · subst hi
        exact .inr (.inr (.inr ⟨v, rest, rfl, (hostWrite_cmd v _).symm.trans h⟩))
      · have hstore := (hostWrite_of_ne_cmd hi v _).symm.trans h
        cases hstore
        exact .inr (.inr (.inl ⟨i, v, rfl⟩))

/-- Settles O22: STATUS is read-only to the host. -/
theorem statusChangesOnlyByCommands : Obligations.StatusChangesOnlyByCommands := by
  intro s t hstep hne
  rcases step_regs_cases hstep with hkept | hreset | ⟨i, v, hstore⟩ | ⟨v, rest, hhost, -⟩
  · exact absurd (congrArg Regs.status hkept) hne
  · exact .inl hreset
  · exact absurd (hstore ▸ regStore_status s.regs i v) hne
  · exact .inr ⟨v, rest, hhost⟩

/-! ### What STATUS says after a command (R26, R27, R182) -/

/-- Settles O15: the fields do not overlap in the assembled word. -/
theorem statusFieldsReadBack : Obligations.StatusFieldsReadBack :=
  ⟨fun e f a => ⟨statusErr_statusWord e f a, statusClamped_statusWord e f a, statusDivBy4_statusWord e f a,
    statusIntMode_statusWord e f a, statusReserved_statusWord e f a, statusErrAddr_statusWord e f a⟩, by decide⟩

/-- Settles O17: every command ends with `complete` or `raise`, and each writes a legal STATUS. -/
theorem everyCommandLeavesALegalStatus : Obligations.EveryCommandLeavesALegalStatus := fun _ _ _ h =>
  (exec_endsCommand h).statusLegal

theorem next_unique {o : Host.Outcome State Fault Refusal} {t u : State} (ht : o = .next t) (hu : o = .next u) : t = u := by
  rw [ht] at hu
  cases hu
  rfl

theorem statusErr_complete (f : Flags) (s : State) : statusErr (complete f s).regs.status = 0 :=
  statusErr_statusWord .ok f 0

/-- A command that ends with an error is a `raise` on the registers it started with. -/
theorem exec_erring {i : Instr} {s t : State} (h : exec i s = .next t) (herr : statusErr t.regs.status ≠ 0) :
    ∃ e a u, u.regs = s.regs ∧ t = raise e a u := by
  rcases exec_cases i s with ⟨e, -, -, he⟩ | ⟨-, f, u, hu, -⟩ | ⟨-, r, hr, hend⟩
  · exact ⟨e, 0, s, rfl, next_unique h he⟩
  · exact absurd (next_unique h hu ▸ statusErr_complete f u) herr
  · rcases endPortCommand_cases hr with ⟨u, l, hu, -⟩ | ⟨a, u, l, e, hu, ⟨hregs, -⟩, -⟩ | ⟨u, l, e, hu, -⟩
    · exact absurd (next_unique h (hend.trans hu) ▸ statusErr_complete {} u) herr
    · exact ⟨.portError, a, u, hregs, next_unique h (hend.trans hu)⟩
    · simp [hend.trans hu] at h

/-- Settles O18: `raise` writes STATUS alone, with every flag 0. -/
theorem erringCommandWritesOnlyStatus : Obligations.ErringCommandWritesOnlyStatus := by
  intro i s t h herr
  obtain ⟨e, a, u, hregs, rfl⟩ := exec_erring h herr
  rw [raise_regs, hregs]
  exact ⟨rfl, statusClamped_statusWord e {} a, statusDivBy4_statusWord e {} a, statusIntMode_statusWord e {} a⟩

/-! ### The frame of a command (R42, R76) -/

theorem readReg_setStatus {n : RegName} (h : n ≠ .status) (s : State) (v : BitVec 16) :
    readReg (setStatus s v).regs n = readReg s.regs n := by
  cases n with
  | status => exact absurd rfl h
  | _ => rfl

theorem readReg_setRefEff {n : RegName} (h : n ≠ .refEff) (s : State) (v : BitVec 64) :
    readReg (setRefEff s v).regs n = readReg s.regs n := by
  cases n with
  | refEff => exact absurd rfl h
  | _ => rfl

theorem readReg_setResFreq {n : RegName} (h : n ≠ .resFreq) (s : State) (v : BitVec 64) :
    readReg (setResFreq s v).regs n = readReg s.regs n := by
  cases n with
  | resFreq => exact absurd rfl h
  | _ => rfl

theorem readReg_setResRdiv {n : RegName} (h : n ≠ .resRdiv) (s : State) (v : BitVec 3) :
    readReg (setResRdiv s v).regs n = readReg s.regs n := by
  cases n with
  | resRdiv => exact absurd rfl h
  | _ => rfl

theorem readReg_writeTriple {n : RegName} (hA : n ≠ .resA) (hB : n ≠ .resB) (hC : n ≠ .resC) (s : State) (t : Triple) :
    readReg (writeTriple s t).regs n = readReg s.regs n := by
  cases n with
  | resA => exact absurd rfl hA
  | resB => exact absurd rfl hB
  | resC => exact absurd rfl hC
  | _ => rfl

theorem status_mem_writesRegs (i : Instr) : RegName.status ∈ writesRegs i := by cases i <;> simp [writesRegs]

/-- `t` differs from `s` in nothing but what the command `i` may change: the registers of its row of R76 and, in the encoder
family, the port and the events. -/
structure CommandFrame (i : Instr) (s t : State) : Prop where
  regs : ∀ n ∉ writesRegs i, readReg t.regs n = readReg s.regs n
  params : t.params = s.params
  host : t.host = s.host
  port : usesPort i = false → t.port = s.port ∧ t.events = s.events

namespace CommandFrame

variable {i : Instr} {s u : State}

theorem refl (i : Instr) (s : State) : CommandFrame i s s := ⟨fun _ _ => rfl, rfl, rfl, fun _ => ⟨rfl, rfl⟩⟩

theorem of_issued {l : List Event} (hi : usesPort i = true) (h : Issued s u l) : CommandFrame i s u := by
  obtain ⟨hregs, hparams, hhost, -⟩ := h
  exact ⟨fun n _ => by rw [hregs], hparams, hhost, fun hno => by simp [hi] at hno⟩

/-- Every command may write STATUS, so completing and raising stay in its frame. -/
theorem setStatus (h : CommandFrame i s u) (v : BitVec 16) : CommandFrame i s (setStatus u v) :=
  { h with
    regs := fun n hn =>
      (readReg_setStatus (ne_of_mem_of_not_mem (status_mem_writesRegs i) hn).symm u v).trans (h.regs n hn) }

theorem setRefEff (h : CommandFrame i s u) (hi : .refEff ∈ writesRegs i) (v : BitVec 64) :
    CommandFrame i s (setRefEff u v) :=
  { h with regs := fun n hn => (readReg_setRefEff (ne_of_mem_of_not_mem hi hn).symm u v).trans (h.regs n hn) }

theorem setResFreq (h : CommandFrame i s u) (hi : .resFreq ∈ writesRegs i) (v : BitVec 64) :
    CommandFrame i s (setResFreq u v) :=
  { h with regs := fun n hn => (readReg_setResFreq (ne_of_mem_of_not_mem hi hn).symm u v).trans (h.regs n hn) }

theorem setResRdiv (h : CommandFrame i s u) (hi : .resRdiv ∈ writesRegs i) (v : BitVec 3) :
    CommandFrame i s (setResRdiv u v) :=
  { h with regs := fun n hn => (readReg_setResRdiv (ne_of_mem_of_not_mem hi hn).symm u v).trans (h.regs n hn) }

theorem writeTriple (h : CommandFrame i s u) (hi : [.resA, .resB, .resC] ⊆ writesRegs i) (t : Triple) :
    CommandFrame i s (writeTriple u t) := by
  refine { h with regs := fun n hn => ?_ }
  have hne : n ∉ [RegName.resA, .resB, .resC] := fun hmem => hn (hi hmem)
  simp only [List.mem_cons, List.not_mem_nil, or_false, not_or] at hne
  obtain ⟨hA, hB, hC⟩ := hne
  exact (readReg_writeTriple hA hB hC u t).trans (h.regs n hn)

end CommandFrame

theorem endPortCommand_frame {i : Instr} {s t : State} {r : PortResult Unit} (hi : usesPort i = true)
    (hr : EndsWell s r) (h : endPortCommand r = .next t) : CommandFrame i s t := by
  rcases endPortCommand_cases hr with ⟨u, l, hu, hissued, -⟩ | ⟨a, u, l, e, hu, hissued, -⟩ | ⟨u, l, e, hu, -⟩
  · exact next_unique h hu ▸ (CommandFrame.of_issued hi hissued).setStatus _
  · exact next_unique h hu ▸ (CommandFrame.of_issued hi hissued).setStatus _
  · simp [hu] at h

/-- Every command, erring or not, stays in its frame: each result it writes is in its row of R76. -/
theorem exec_frame {i : Instr} {s t : State} (h : exec i s = .next t) : CommandFrame i s t := by
  have hs := CommandFrame.refl i s
  cases i with
  | nop => exact next_unique h rfl ▸ hs.setStatus _
  | correctRef =>
    rcases execCorrectRef_cases s with hx | ⟨v, hx⟩
    · exact next_unique h hx ▸ hs.setStatus _
    · exact next_unique h hx ▸ (hs.setRefEff (by decide) v).setStatus _
  | solve =>
    rcases execSolve_cases s with ⟨-, hx⟩ | ⟨-, p, -, hx⟩
    · exact next_unique h hx ▸ hs.setStatus _
    · exact next_unique h hx ▸ (hs.writeTriple (by decide) p).setStatus _
  | planPll =>
    rcases execPlanPll_cases s with hx | hx | ⟨f, p, v, hx⟩
    · exact next_unique h hx ▸ hs.setStatus _
    · exact next_unique h hx ▸ hs.setStatus _
    · exact next_unique h hx ▸ ((hs.writeTriple (by decide) p).setResFreq (by decide) v).setStatus _
  | planMs aux =>
    rcases execPlanMs_cases aux s with hx | ⟨f, p, v, hx⟩
    · exact next_unique h hx ▸ hs.setStatus _
    · exact next_unique h hx ▸ ((hs.writeTriple (by simp [writesRegs]) p).setResFreq (by simp [writesRegs]) v).setStatus _
  | selectRdiv =>
    obtain ⟨c, v, hx⟩ := execSelectRdiv_cases s
    exact next_unique h hx ▸ ((hs.setResRdiv (by decide) c).setResFreq (by decide) v).setStatus _
  | encodeTriple base =>
    obtain ⟨r, hr, hx⟩ := execEncodeTriple_endsWell base s
    exact endPortCommand_frame rfl hr (hx.symm.trans h)
  | encodeAux base =>
    rcases execEncodeAux_cases base s with hx | ⟨r, hr, hx⟩
    · exact next_unique h hx ▸ hs.setStatus _
    · exact endPortCommand_frame rfl hr (hx.symm.trans h)
  | encodeCtrl ch =>
    obtain ⟨r, hr, hx⟩ := execEncodeCtrl_endsWell ch s
    exact endPortCommand_frame rfl hr (hx.symm.trans h)

/-- Settles O19: the clauses of the frame. -/
theorem commandWritesOnlyItsRegisters : Obligations.CommandWritesOnlyItsRegisters := fun _ _ _ h =>
  have hframe := exec_frame h
  ⟨hframe.regs, hframe.params, hframe.host, hframe.port⟩

/-! ### REF_EFF (R35) -/

theorem refEff_not_mem_writesRegs {i : Instr} (h : i ≠ .correctRef) : RegName.refEff ∉ writesRegs i := by
  cases i with
  | correctRef => exact absurd rfl h
  | _ => simp [writesRegs]

theorem execWord_keeps_refEff {w : CmdWord} {s t : State} (hw : decode w ≠ .ok .correctRef)
    (h : execWord w s = .next t) : t.regs.refEff = s.regs.refEff := by
  cases hdecode : decode w with
  | error e => exact next_unique h (execWord_of_decode_error hdecode s) ▸ rfl
  | ok i =>
    have hi : i ≠ .correctRef := fun hi => hw (by rw [hdecode, hi])
    rw [execWord_of_decode_ok hdecode] at h
    exact (exec_frame h).regs .refEff (refEff_not_mem_writesRegs hi)

/-- Settles O21: REF_EFF is read-only to the host, and CORRECT_REF is the only command with it in its row of R76. -/
theorem refEffChangesOnlyByCorrectRef : Obligations.RefEffChangesOnlyByCorrectRef := by
  intro s t hstep hne
  rcases step_regs_cases hstep with hkept | hreset | ⟨i, v, hstore⟩ | ⟨v, rest, hhost, hcmd⟩
  · exact absurd (congrArg Regs.refEff hkept) hne
  · exact .inl hreset
  · exact absurd (hstore ▸ regStore_refEff s.regs i v) hne
  · refine .inr ⟨v, rest, hhost, ?_⟩
    by_contra hw
    have hkept := execWord_keeps_refEff hw hcmd
    exact hne (hkept.trans (regStore_refEff s.regs 0x00 v))

/-! ### Commands and the STATUS they start with (R27, R39)

A command without transactions takes the same branch on the same operands and writes STATUS last, over what stood there. The
port transactions neither read nor write the registers, so replacing the registers first gives the same transactions, ended on
the replaced registers. -/

theorem complete_setStatus (f : Flags) (s : State) (v : BitVec 16) : complete f (setStatus s v) = complete f s := rfl

theorem raise_setStatus (e : ErrCode) (a : Byte) (s : State) (v : BitVec 16) : raise e a (setStatus s v) = raise e a s := rfl

theorem exec_setStatus_of_not_usesPort {i : Instr} (hi : usesPort i = false) (s : State) (v : BitVec 16) :
    exec i (setStatus s v) = exec i s := by
  cases i with
  | nop | correctRef | solve | planPll | planMs | selectRdiv => rfl
  | encodeTriple | encodeAux | encodeCtrl => cases hi

/-- The same transactions, ended on the register file `r`. -/
def PortResult.withRegs {α : Type} (r : Regs) : PortResult α → PortResult α
  | .done v s => .done v (setRegs s r)
  | .failed addr s => .failed addr (setRegs s r)
  | .unanswered s => .unanswered (setRegs s r)

theorem memRead_setRegs (addr : Byte) (s : State) (r : Regs) :
    memRead addr (setRegs s r) = (memRead addr s).withRegs r := by
  unfold memRead
  rw [setRegs_port]
  rcases s.port.reads with _ | ⟨_ | _, rest⟩ <;> rfl

theorem memWrite_setRegs (addr : Byte) (payload : List Byte) (s : State) (r : Regs) :
    memWrite addr payload (setRegs s r) = (memWrite addr payload s).withRegs r := by
  unfold memWrite
  rw [setRegs_port]
  rcases s.port.writes with _ | ⟨_ | _, rest⟩ <;> rfl

theorem andThen_withRegs {α β : Type} {k : α → State → PortResult β} {r : Regs}
    (hk : ∀ v t, k v (setRegs t r) = (k v t).withRegs r) (res : PortResult α) :
    andThen (res.withRegs r) k = (andThen res k).withRegs r := by
  cases res with
  | done v t => exact hk v t
  | failed addr t => rfl
  | unanswered t => rfl

theorem updateField_setRegs (loc : Option FieldLoc) (w : Nat) (v : Byte) (s : State) (r : Regs) :
    updateField loc w v (setRegs s r) = (updateField loc w v s).withRegs r := by
  cases loc with
  | none => rfl
  | some l =>
    simp only [updateField, memRead_setRegs]
    exact andThen_withRegs (fun _ t => memWrite_setRegs _ _ t r) _

theorem updateControlFields_setRegs (l : ChannelLocs) (ctrl : BitVec 5) (s : State) (r : Regs) :
    updateControlFields l ctrl (setRegs s r) = (updateControlFields l ctrl s).withRegs r := by
  simp only [updateControlFields, updateField_setRegs]
  refine andThen_withRegs (fun _ t => ?_) _
  simp only [updateField_setRegs]
  exact andThen_withRegs (fun _ u => updateField_setRegs _ _ _ u r) _

theorem updateControlFields_endsWell (l : ChannelLocs) (ctrl : BitVec 5) (s : State) :
    EndsWell s (updateControlFields l ctrl s) :=
  andThen_endsWell (updateField_endsWell _ _ _ s) fun _ t =>
    andThen_endsWell (updateField_endsWell _ _ _ t) fun _ u => updateField_endsWell _ _ _ u

/-- Transactions leave the registers alone, and the end of the command then rewrites all of STATUS. -/
theorem endPortCommand_withStatus {s t : State} {r : PortResult Unit} (hr : EndsWell s r) (v : BitVec 16)
    (h : endPortCommand r = .next t) : endPortCommand (r.withRegs { s.regs with status := v }) = .next t := by
  cases r with
  | done x u =>
    obtain ⟨l, ⟨hregs, -⟩, -⟩ := hr
    rw [← h, ← hregs]
    exact congrArg Host.Outcome.next (complete_setStatus {} u v)
  | failed a u =>
    obtain ⟨l, e, ⟨hregs, -⟩, -⟩ := hr
    rw [← h, ← hregs]
    exact congrArg Host.Outcome.next (raise_setStatus .portError a u v)
  | unanswered u => cases h

theorem setStatus_eq_setRegs (s : State) (v : BitVec 16) : setStatus s v = setRegs s { s.regs with status := v } := rfl

theorem execEncodeTriple_setStatus {base : Byte} {s t : State} (v : BitVec 16) (h : execEncodeTriple base s = .next t) :
    execEncodeTriple base (setStatus s v) = .next t := by
  rw [execEncodeTriple, setStatus_eq_setRegs, memWrite_setRegs]
  exact endPortCommand_withStatus (memWrite_endsWell _ _ s) v h

theorem execEncodeAux_setStatus {base : Byte} {s t : State} (v : BitVec 16) (h : execEncodeAux base s = .next t) :
    execEncodeAux base (setStatus s v) = .next t := by
  unfold execEncodeAux at h ⊢
  by_cases hp1 : 255 < s.regs.p1.toNat
  · rw [if_pos hp1] at h
    rwa [setStatus_regs, if_pos hp1, raise_setStatus]
  · rw [if_neg hp1] at h
    rw [setStatus_regs, if_neg hp1, setStatus_eq_setRegs, memWrite_setRegs]
    exact endPortCommand_withStatus (memWrite_endsWell _ _ s) v h

theorem execEncodeCtrl_setStatus {ch : Channel} {s t : State} (v : BitVec 16) (h : execEncodeCtrl ch s = .next t) :
    execEncodeCtrl ch (setStatus s v) = .next t := by
  rw [execEncodeCtrl, setStatus_eq_setRegs, updateControlFields_setRegs]
  exact endPortCommand_withStatus (updateControlFields_endsWell _ _ s) v h

/-- Settles O16: the commands without transactions rewrite STATUS last, and so does the end of an encoder command. -/
theorem commandsDoNotDependOnStatus : Obligations.CommandsDoNotDependOnStatus := by
  intro i s t v h
  cases i with
  | encodeTriple base => exact execEncodeTriple_setStatus v h
  | encodeAux base => exact execEncodeAux_setStatus v h
  | encodeCtrl ch => exact execEncodeCtrl_setStatus v h
  | _ => exact (exec_setStatus_of_not_usesPort rfl s v).trans h

end Sys2Proof.Machine

/-! PROOFS of the family 20_memory: where an access and its command's transactions stand in the order of events, where a byte of
the parameter block lands, and the transactions of ENCODE_CTRL when the port answers each with success. -/

namespace Sys2Proof.Machine

/-! ### The order of events (20_memory.md R60, R61) -/

/-- From `s` to `t` the host's accesses to come stay, and every new event is a port transaction. -/
def AddsPortEvents (s t : State) : Prop :=
  t.host = s.host ∧ ∃ l, t.events = s.events ++ l ∧ l.all isPortEvent = true

theorem AddsPortEvents.of_events_eq {s t : State} (hhost : t.host = s.host) (hevents : t.events = s.events) :
    AddsPortEvents s t := ⟨hhost, [], by rw [hevents, List.append_nil], rfl⟩

/-- Transactions, and then STATUS written, as every encoder command ends. -/
theorem AddsPortEvents.setStatus_of_issued {s t : State} {l : List Event} (h : Issued s t l) (v : BitVec 16) :
    AddsPortEvents s (setStatus t v) := by
  obtain ⟨-, -, hhost, hevents, hport⟩ := h
  exact ⟨hhost, l, hevents, hport⟩

theorem endPortCommand_addsPortEvents {s t : State} {r : PortResult Unit} (hr : EndsWell s r)
    (h : endPortCommand r = .next t) : AddsPortEvents s t := by
  rcases endPortCommand_cases hr with ⟨u, l, hu, hissued, -⟩ | ⟨a, u, l, e, hu, hissued, -⟩ | ⟨u, l, e, hu, -⟩
  · exact next_unique h hu ▸ AddsPortEvents.setStatus_of_issued hissued _
  · exact next_unique h hu ▸ AddsPortEvents.setStatus_of_issued hissued _
  · simp [hu] at h

theorem exec_addsPortEvents {i : Instr} {s t : State} (h : exec i s = .next t) : AddsPortEvents s t := by
  rcases exec_cases i s with ⟨e, -, -, hx⟩ | ⟨-, f, u, hx, -, hhost, -, hevents⟩ | ⟨-, r, hr, hx⟩
  · exact next_unique h hx ▸ .of_events_eq rfl rfl
  · exact next_unique h hx ▸ .of_events_eq hhost hevents
  · exact endPortCommand_addsPortEvents hr (hx ▸ h)

theorem execWord_addsPortEvents {w : CmdWord} {s t : State} (h : execWord w s = .next t) : AddsPortEvents s t := by
  cases hdecode : decode w with
  | ok i => exact exec_addsPortEvents (execWord_of_decode_ok hdecode s ▸ h)
  | error e => exact next_unique h (execWord_of_decode_error hdecode s) ▸ .of_events_eq rfl rfl

/-- The access's own event comes first; only a CMD write has a command that can add to it. -/
theorem perform_addsPortEvents {a : HostAccess} {s t : State} (h : perform a s = .next t) :
    AddsPortEvents (record s (accessEvent s.regs a)) t := by
  cases a with
  | read i =>
    cases h
    exact .of_events_eq rfl rfl
  | reset =>
    cases h
    exact .of_events_eq rfl rfl
  | write i v =>
    by_cases hi : i = 0x00
    · subst hi
      change AddsPortEvents (storeHostWrite 0x00 v s) t
      exact execWord_addsPortEvents ((hostWrite_cmd v s).symm.trans h)
    · exact next_unique h (hostWrite_of_ne_cmd hi v s) ▸ .of_events_eq rfl rfl

/-- Settles O25: the step is `perform` of the access on the state that has the rest of them to come. -/
theorem eventsFormOneTotalOrder : Obligations.EventsFormOneTotalOrder := by
  intro s t a rest hhost hstep
  rw [step_of_host_cons hhost] at hstep
  obtain ⟨hrest, l, hevents, hport⟩ := perform_addsPortEvents hstep
  exact ⟨hrest, l, by simpa using hevents, hport⟩

/-! ### Where a payload byte lands (R55, R206) -/

theorem landingAddr_of_le {p : Params} {addr : Byte} {i : Nat} (hp : p.portAutoinc = true) (h : addr.toNat + i ≤ 0xFF) :
    landingAddr p addr i = some (addr + BitVec.ofNat 8 i) := by
  simp [landingAddr, hp, h, BitVec.ofNat_add]

theorem parameterBlock_getElem?_two (p1 : BitVec 18) (p2 p3 : BitVec 20) :
    (parameterBlock p1 p2 p3)[2]? = some ((p1.extractLsb' 16 2).setWidth 8) := rfl

/-- Settles O54: byte 3 is the two high bits of `p1`, zero-extended. -/
theorem parameterBlockClearsTheNeighbouringBits : Obligations.ParameterBlockClearsTheNeighbouringBits := by
  intro p base p1 p2 p3 hp hbase
  have hland : base.toNat + 2 ≤ 0xFF := by omega
  have hbyte : ((p1.extractLsb' 16 2).setWidth 8).toNat < 4 := by
    rw [BitVec.toNat_setWidth]
    exact (Nat.mod_le _ _).trans_lt (p1.extractLsb' 16 2).isLt
  exact ⟨landingAddr_of_le hp hland, _, parameterBlock_getElem?_two p1 p2 p3, hbyte⟩

/-! ### ENCODE_CTRL as the list of its present fields (41_encoder.md R150, R152)

The command is written over three optional locations, and its transactions are listed by `presentFields`. `updateFields` is
the command as a recursion over that list. -/

/-- The read-modify-writes of a list of fields, one after another. -/
def updateFields : List (FieldLoc × Nat × Byte) → State → PortResult Unit
  | [], s => .done () s
  | (loc, w, v) :: fs, s => andThen (updateField (some loc) w v s) fun _ t => updateFields fs t

/-- An optional field in front of others: an ABSENT one adds no transaction. -/
theorem updateFields_toList_append (loc : Option FieldLoc) (w : Nat) (v : Byte) (fs : List (FieldLoc × Nat × Byte))
    (s : State) :
    updateFields ((loc.map (·, w, v)).toList ++ fs) s = andThen (updateField loc w v s) fun _ t => updateFields fs t := by
  cases loc with
  | none => rfl
  | some l => rfl

theorem updateFields_toList (loc : Option FieldLoc) (w : Nat) (v : Byte) (s : State) :
    updateFields (loc.map (·, w, v)).toList s = updateField loc w v s := by
  cases loc with
  | none => rfl
  | some l =>
    change andThen (updateField (some l) w v s) (fun _ t => .done () t) = updateField (some l) w v s
    cases updateField (some l) w v s with
    | done | failed | unanswered => rfl

theorem presentFields_eq_append (l : ChannelLocs) (ctrl : BitVec 5) :
    presentFields l ctrl = (l.int.map (·, 1, ctrlIntMode ctrl)).toList ++
      ((l.rdiv.map (·, 3, ctrlRdiv ctrl)).toList ++ (l.div4.map (·, 1, ctrlDivBy4 ctrl)).toList) := by
  simp [presentFields, List.filterMap_eq_flatMap_toList]

theorem updateControlFields_eq_updateFields (l : ChannelLocs) (ctrl : BitVec 5) (s : State) :
    updateControlFields l ctrl s = updateFields (presentFields l ctrl) s := by
  simp only [presentFields_eq_append, updateFields_toList_append, updateFields_toList, updateControlFields]

/-! ### Transactions the port answers with success (R53, R54) -/

theorem memRead_of_ok {s : State} {d : Byte} {reads : List ReadAnswer} (h : s.port.reads = .ok d :: reads) (addr : Byte) :
    memRead addr s =
      .done d (record (setPort s { s.port with reads := reads }) (.portRead addr (some (.ok d)))) := by
  simp [memRead, h]

theorem memWrite_of_ok {s : State} {writes : List WriteAnswer} (h : s.port.writes = .ok :: writes) (addr : Byte)
    (payload : List Byte) :
    memWrite addr payload s =
      .done () (record (setPort s { s.port with writes := writes }) (.portWrite addr payload (some .ok))) := by
  simp [memWrite, h]

/-- The state after transactions `l`, with these answers still to come. -/
def afterTransactions (s : State) (port : Port) (l : List Event) : State :=
  { s with port := port, events := s.events ++ l }

theorem updateField_of_ok {s : State} {d : Byte} {reads : List ReadAnswer} {writes : List WriteAnswer}
    (hr : s.port.reads = .ok d :: reads) (hw : s.port.writes = .ok :: writes) (f : FieldLoc × Nat × Byte) :
    updateField (some f.1) f.2.1 f.2.2 s = .done () (afterTransactions s ⟨reads, writes⟩ (fieldEvents f d)) := by
  simp [updateField, memRead_of_ok hr, memWrite_of_ok, hw, afterTransactions, fieldEvents, record, setPort]

/-- With an answer for each of its transactions, a list of fields issues a read and a write for each field in order. -/
theorem updateFields_of_ok {fs : List (FieldLoc × Nat × Byte)} {ds : List Byte} (hlen : ds.length = fs.length)
    {reads : List ReadAnswer} {writes : List WriteAnswer} {s : State}
    (hr : s.port.reads = ds.map ReadAnswer.ok ++ reads)
    (hw : s.port.writes = List.replicate fs.length WriteAnswer.ok ++ writes) :
    updateFields fs s = .done () (afterTransactions s ⟨reads, writes⟩ (List.zipWith fieldEvents fs ds).flatten) := by
  induction fs generalizing ds s with
  | nil =>
    obtain rfl := List.length_eq_zero_iff.mp hlen
    obtain rfl : s.port.reads = reads := hr
    obtain rfl : s.port.writes = writes := hw
    simp [updateFields, afterTransactions]
  | cons f fs ih =>
    obtain ⟨d, ds, rfl⟩ := List.exists_cons_of_length_eq_add_one hlen
    have hread : s.port.reads = .ok d :: (ds.map .ok ++ reads) := hr
    have hwrite : s.port.writes = .ok :: (List.replicate fs.length .ok ++ writes) := hw
    rw [updateFields, updateField_of_ok hread hwrite, andThen_done, ih (Nat.succ.inj hlen) rfl rfl]
    simp [afterTransactions]

/-- Settles O57: the command is the updates of its present fields, all answered, and then the end that clears STATUS. -/
theorem encodeCtrlUpdatesEachPresentField : Obligations.EncodeCtrlUpdatesEachPresentField := by
  intro s ch ds reads writes fs hlen hr hw
  have hdone : updateControlFields (channelLocs s.params ch) s.regs.ctrl s = .done () _ :=
    (updateControlFields_eq_updateFields _ _ s).trans (updateFields_of_ok hlen hr hw)
  exact congrArg endPortCommand hdone

end Sys2Proof.Machine

/-! PROOFS of the family 30_encoding: what the decoder reads of a word, and the opcode table's rows; then the pseudo-instructions
that move results, the registers a command's effect depends on, and the answers that let a step end. -/

namespace Sys2Proof

/-! ### The encoded word and the decoder (30_encoding.md R71, R72, R78) -/

@[simp] theorem reservedBitsClear_encode (i : Instr) : reservedBitsClear (encode i) = true := by
  cases i <;> exact reservedBitsClear_commandWord _ _ _ _

@[simp] theorem opField_encode (i : Instr) : opField (encode i) = opcode i := by
  cases i <;> exact opField_commandWord _ _ _ _

theorem operandsOf_encode (i : Instr) : operandsOf (encode i) i := by
  cases i with
  | nop | correctRef | solve | planPll | selectRdiv => trivial
  | planMs aux => exact auxField_commandWord _ aux _ _
  | encodeTriple base | encodeAux base => exact baseField_commandWord _ _ _ base
  | encodeCtrl ch => exact chField_commandWord _ _ ch _

/-- Settles O1: the encoded word has the instruction's OP and operand fields, and no reserved bit. -/
theorem decodeOfEncodeIsTheInstruction : Obligations.DecodeOfEncodeIsTheInstruction := fun i =>
  (decode_eq_ok_iff _ i).mpr ⟨reservedBitsClear_encode i, opField_encode i, operandsOf_encode i⟩

/-- The read mask of an instruction keeps exactly the fields a decoding depends on (R73, R81). -/
theorem and_readMask_eq_encode_iff (w : CmdWord) (i : Instr) :
    w &&& readMask i = encode i ↔ reservedBitsClear w = true ∧ opField w = opcode i ∧ operandsOf w i := by
  cases i with
  | nop | correctRef | solve | planPll | selectRdiv =>
    simp only [operandsOf, and_true]
    exact and_opMask_iff w _
  | planMs aux => exact and_auxMask_iff w _ aux
  | encodeTriple base | encodeAux base => exact and_baseMask_iff w _ base
  | encodeCtrl ch => exact and_chMask_iff w _ ch

/-- Settles O2: both sides say the same of the word's fields. -/
theorem decodeReadsExactlyTheReadFields : Obligations.DecodeReadsExactlyTheReadFields := fun w i =>
  (decode_eq_ok_iff w i).trans (and_readMask_eq_encode_iff w i).symm

/-! ### Legal and illegal words (R74, R75) -/

theorem toNat_opField (w : CmdWord) : (opField w).toNat = w.toNat % 16 := by
  simp [opField, BitVec.extractLsb'_toNat]

theorem reservedBitsClear_iff_toNat (w : CmdWord) : reservedBitsClear w = true ↔ w.toNat / 65536 = 0 := by
  have hw := w.isLt
  rw [reservedBitsClear, beq_iff_eq, ← BitVec.toNat_inj, BitVec.extractLsb'_toNat, Nat.shiftRight_eq_div_pow]
  simp only [BitVec.toNat_ofNat]
  omega

/-- Every assigned OP is the OP of an instruction with the operands of the word. -/
theorem exists_opcode_eq {op : BitVec 4} (h : op.toNat ≤ 8) (w : CmdWord) : ∃ i, op = opcode i ∧ operandsOf w i := by
  obtain ⟨n, hn⟩ : ∃ n, op.toNat = n := ⟨_, rfl⟩
  obtain rfl : op = BitVec.ofNat 4 n := by simp [← hn]
  rw [hn] at h
  interval_cases n
  · exact ⟨.nop, rfl, trivial⟩
  · exact ⟨.correctRef, rfl, trivial⟩
  · exact ⟨.solve, rfl, trivial⟩
  · exact ⟨.planPll, rfl, trivial⟩
  · exact ⟨.planMs (auxField w), rfl, rfl⟩
  · exact ⟨.selectRdiv, rfl, trivial⟩
  · exact ⟨.encodeTriple (baseField w), rfl, rfl⟩
  · exact ⟨.encodeAux (baseField w), rfl, rfl⟩
  · exact ⟨.encodeCtrl (chField w), rfl, rfl⟩

theorem opcode_le (i : Instr) : (opcode i).toNat ≤ 8 := by cases i <;> simp [opcode]

theorem exists_decode_ok_iff (w : CmdWord) :
    (∃ i, decode w = .ok i) ↔ reservedBitsClear w = true ∧ (opField w).toNat ≤ 8 := by
  simp only [decode_eq_ok_iff]
  constructor
  · rintro ⟨i, hclear, hop, -⟩
    exact ⟨hclear, hop ▸ opcode_le i⟩
  · rintro ⟨hclear, hop⟩
    obtain ⟨i, hi⟩ := exists_opcode_eq hop w
    exact ⟨i, hclear, hi⟩

theorem decode_of_reservedBits {w : CmdWord} (h : reservedBitsClear w = false) : decode w = .error .reservedBits := by
  simp [decode, h]

theorem decode_of_reservedOp {w : CmdWord} (hclear : reservedBitsClear w = true) (hop : 9 ≤ (opField w).toNat) :
    decode w = .error .reservedOp := by
  rw [decode, if_pos hclear]
  split
  case h_10 => rfl
  all_goals omega

/-- Settles O3: the reserved bits and OP, read as numbers, decide between the operations and the two rejections. -/
theorem everyWordIsOneOperationOrIllegal : Obligations.EveryWordIsOneOperationOrIllegal := by
  intro w
  refine ⟨?_, fun hset => ?_, fun hclear hop => ?_⟩
  · rw [exists_decode_ok_iff, reservedBitsClear_iff_toNat, toNat_opField]
  · exact decode_of_reservedBits (Bool.eq_false_iff.mpr (mt (reservedBitsClear_iff_toNat w).mp hset))
  · exact decode_of_reservedOp ((reservedBitsClear_iff_toNat w).mpr hclear) (toNat_opField w ▸ hop)

/-! ### The opcode table (R81) -/

/-- Every row compares OP and the reserved bits, with an assigned OP. -/
theorem mem_opcodeTable {r : OpcodeRow} (h : r ∈ opcodeTable) :
    r.mask = 0xFFFF000F ∧ r.pattern = commandWord (opField r.pattern) false 0 0 ∧ (opField r.pattern).toNat ≤ 8 := by
  revert r; decide

theorem selects_iff {r : OpcodeRow} (h : r ∈ opcodeTable) (w : CmdWord) :
    r.selects w = true ↔ reservedBitsClear w = true ∧ opField w = opField r.pattern := by
  obtain ⟨hmask, hpattern, -⟩ := mem_opcodeTable h
  rw [OpcodeRow.selects, beq_iff_eq, hmask]
  conv_lhs => rw [hpattern]
  exact and_opMask_iff w _

/-- The table has one row for each OP of R72. -/
theorem mnemonics_of_opcode (i : Instr) :
    (opcodeTable.filter fun r => opcode i == opField r.pattern).map (·.mnemonic) = [mnemonic i] := by
  cases i <;> rfl

/-- Settles O4: a row selects a word by its OP, of which the table has one row, and none selects an illegal word. -/
theorem tableRowsSelectTheDecodedOperation : Obligations.TableRowsSelectTheDecodedOperation := by
  intro w
  cases hdecode : decode w with
  | ok i =>
    obtain ⟨hclear, hop, -⟩ := (decode_eq_ok_iff w i).mp hdecode
    have hrows : ∀ r ∈ opcodeTable, r.selects w = (opcode i == opField r.pattern) := fun r hr => by
      rw [Bool.eq_iff_iff, selects_iff hr, hop, beq_iff_eq]
      exact and_iff_right hclear
    rw [List.filter_congr hrows]
    exact mnemonics_of_opcode i
  | error e =>
    have hnone : ∀ r ∈ opcodeTable, ¬ r.selects w = true := fun r hr hsel => by
      obtain ⟨hclear, hop⟩ := (selects_iff hr w).mp hsel
      obtain ⟨-, -, hle⟩ := mem_opcodeTable hr
      obtain ⟨i, hi⟩ := (exists_decode_ok_iff w).mpr ⟨hclear, hop ▸ hle⟩
      simp [hdecode] at hi
    rw [List.filter_eq_nil_iff.mpr hnone]
    rfl

/-- Settles O5: closed words, each decoded by evaluation. -/
theorem sampleWordsDecodeAsTheSpecSays : Obligations.SampleWordsDecodeAsTheSpecSays := by
  unfold Obligations.SampleWordsDecodeAsTheSpecSays
  decide

end Sys2Proof

namespace Sys2Proof.Machine

/-! ### The pseudo-instructions that move results (30_encoding.md R80, R210) -/

theorem performAll_read (i : Byte) (rest : List HostAccess) (s : State) :
    performAll (.read i :: rest) s = performAll rest (hostRead i s) := rfl

theorem performAll_write {n : RegName} (h : n ≠ .cmd) (v : HostWord) (rest : List HostAccess) (s : State) :
    performAll (.write (regIndex n) v :: rest) s = performAll rest (storeHostWrite (regIndex n) v s) := by
  have hi : regIndex n ≠ 0x00 := by
    cases n with
    | cmd => exact absurd rfl h
    | _ => simp [regIndex]
  simp only [performAll, perform, hostWrite_of_ne_cmd hi]

@[simp] theorem hostRead_regs (i : Byte) (s : State) : (hostRead i s).regs = s.regs := rfl

@[simp] theorem storeHostWrite_regs (n : RegName) (v : HostWord) (s : State) :
    (storeHostWrite (regIndex n) v s).regs = writeReg s.regs n v :=
  regStore_of_regAt_some (regAt_regIndex n) s.regs v

/-- Two reads, then CTRL is stored. -/
theorem runStmt_ldctrl (s : State) :
    ∃ t, runStmt .ldctrl s = .next t ∧
      t.regs = { s.regs with
        ctrl := (ldctrlValue (s.regs.status.setWidth 64) (s.regs.resRdiv.setWidth 64)).setWidth 5 } := by
  simp only [runStmt, stmtAccesses, performAll_read, performAll_write (n := .ctrl) (by decide)]
  exact ⟨_, rfl, storeHostWrite_regs .ctrl _ _⟩

/-- Three moves, none to a register a later one reads. -/
theorem runStmt_ldtriple (s : State) :
    ∃ t, runStmt .ldtriple s = .next t ∧
      t.regs = { s.regs with p1 := s.regs.resA.setWidth 18, p2 := s.regs.resB, p3 := s.regs.resC } := by
  simp only [runStmt, stmtAccesses, moveAccesses, List.cons_append, List.nil_append, performAll_read,
    performAll_write (n := .p1) (by decide), performAll_write (n := .p2) (by decide),
    performAll_write (n := .p3) (by decide)]
  refine ⟨_, rfl, ?_⟩
  simp [writeReg, readReg]

/-- A 1-bit field zero-extended to a byte. -/
theorem setWidth_extractLsb'_one {n : Nat} (x : BitVec n) (k : Nat) :
    (x.extractLsb' k 1).setWidth 8 = if x.getLsbD k then (1 : Byte) else 0 := by
  rw [eq_iff_bits]
  intro i hi
  cases h : x.getLsbD k <;> interval_cases i <;> simp [h]

/-! `ldctrl` assembles CTRL as R32 lays it out. -/

theorem ctrlIntMode_ldctrlValue (status : BitVec 16) (rdiv : BitVec 3) :
    ctrlIntMode ((ldctrlValue (status.setWidth 64) (rdiv.setWidth 64)).setWidth 5) =
      if statusIntMode status then 1 else 0 := by
  rw [ctrlIntMode, setWidth_extractLsb'_one]
  simp [ldctrlValue, statusIntMode]

theorem ctrlDivBy4_ldctrlValue (status : BitVec 16) (rdiv : BitVec 3) :
    ctrlDivBy4 ((ldctrlValue (status.setWidth 64) (rdiv.setWidth 64)).setWidth 5) =
      if statusDivBy4 status then 1 else 0 := by
  rw [ctrlDivBy4, setWidth_extractLsb'_one]
  simp [ldctrlValue, statusDivBy4]

theorem ctrlRdiv_ldctrlValue (status : BitVec 16) (rdiv : BitVec 3) :
    ctrlRdiv ((ldctrlValue (status.setWidth 64) (rdiv.setWidth 64)).setWidth 5) = rdiv.setWidth 8 := by
  rw [ctrlRdiv]
  congr 1
  rw [eq_iff_bits]
  intro i hi
  interval_cases i <;> simp [ldctrlValue]

/-- Settles O14: both statements only read and store, and the fields of CTRL do not overlap. -/
theorem ldctrlAndLdtripleMoveTheResults : Obligations.LdctrlAndLdtripleMoveTheResults := by
  intro s
  constructor
  · obtain ⟨t, hrun, hregs⟩ := runStmt_ldctrl s
    refine ⟨t, hrun, by simp [hregs], ?_, ?_, ?_⟩
    · rw [hregs, ctrlIntMode_ldctrlValue]
    · rw [hregs, ctrlDivBy4_ldctrlValue]
    · rw [hregs, ctrlRdiv_ldctrlValue, BitVec.toNat_setWidth_of_le (by decide)]
  · obtain ⟨t, hrun, hregs⟩ := runStmt_ldtriple s
    exact ⟨t, hrun, by simp [hregs], by rw [hregs, BitVec.toNat_setWidth]⟩

/-! ### What a command's effect depends on (R76)

A command on the registers `r`, which hold the operands it reads, takes the same branch with the same results as on those of
`s`; what else stands in the registers only stays there. -/

theorem setWidth_injective {n m : Nat} (h : n ≤ m) : Function.Injective (BitVec.setWidth m : BitVec n → BitVec m) :=
  fun x y hxy => by simpa [h] using congrArg (BitVec.setWidth n) hxy

theorem signExtend_injective {n m : Nat} (h : n ≤ m) : Function.Injective (BitVec.signExtend m : BitVec n → BitVec m) :=
  fun x y hxy => BitVec.eq_of_toInt_eq (by simpa only [BitVec.toInt_signExtend_of_le h] using congrArg BitVec.toInt hxy)

/-- The registers `r` hold what the command `i` reads in `s`. -/
def SameOperands (i : Instr) (s : State) (r : Regs) : Prop := ∀ n ∈ readsRegs i, readReg r n = readReg s.regs n

/-- Where `o` is a next state, so is `o'`, with the same transactions, STATUS and, after a success, results of `i`. -/
def SameEffect (i : Instr) (o o' : Host.Outcome State Fault Refusal) : Prop :=
  ∀ t, o = .next t → ∃ u, o' = .next u ∧ u.events = t.events ∧ u.port = t.port ∧ u.regs.status = t.regs.status ∧
    (statusErr t.regs.status = 0 → ∀ n ∈ writesRegs i, readReg u.regs n = readReg t.regs n)

theorem sameEffect_raise (i : Instr) {e : ErrCode} (he : errBits e ≠ 0) (a : Byte) (s : State) (r : Regs) :
    SameEffect i (.next (raise e a s)) (.next (raise e a (setRegs s r))) := by
  intro t ht
  cases ht
  exact ⟨_, rfl, rfl, rfl, rfl, fun hok => absurd ((statusErr_statusWord e {} a).symm.trans hok) he⟩

theorem sameEffect_complete {i : Instr} (f : Flags) {t u : State} (hevents : u.events = t.events) (hport : u.port = t.port)
    (hregs : ∀ n ∈ writesRegs i, n ≠ .status → readReg u.regs n = readReg t.regs n) :
    SameEffect i (.next (complete f t)) (.next (complete f u)) := by
  intro t' ht
  cases ht
  refine ⟨_, rfl, hevents, hport, rfl, fun _ n hn => ?_⟩
  by_cases hstatus : n = .status
  · subst hstatus
    rfl
  · exact (readReg_setStatus hstatus u _).trans ((hregs n hn hstatus).trans (readReg_setStatus hstatus t _).symm)

/-- The encoder family writes STATUS alone, and its transactions do not touch the registers. -/
theorem sameEffect_endPortCommand {i : Instr} (hi : writesRegs i = [.status]) (res : PortResult Unit) (r : Regs) :
    SameEffect i (endPortCommand res) (endPortCommand (res.withRegs r)) := by
  cases res with
  | done v t => exact sameEffect_complete {} rfl rfl (by simp [hi])
  | failed a t => exact sameEffect_raise i (by decide) a t r
  | unanswered t =>
    intro u hu
    cases hu

section
variable {s : State} {r : Regs}

theorem execNop_sameEffect : SameEffect .nop (execNop s) (execNop (setRegs s r)) :=
  sameEffect_complete {} rfl rfl (by simp [writesRegs])

theorem execCorrectRef_sameEffect (h : SameOperands .correctRef s r) :
    SameEffect .correctRef (execCorrectRef s) (execCorrectRef (setRegs s r)) := by
  have hnom : r.refNom = s.regs.refNom := h .refNom (by decide)
  have hppb : r.refPpb = s.regs.refPpb := signExtend_injective (by decide) (h .refPpb (by decide))
  simp only [execCorrectRef, setRegs_regs, hnom, hppb]
  split
  · exact sameEffect_complete {} rfl rfl (by simp [writesRegs, readReg])
  · exact sameEffect_raise _ (by decide) 0 s r

theorem execSolve_sameEffect (h : SameOperands .solve s r) :
    SameEffect .solve (execSolve s) (execSolve (setRegs s r)) := by
  have hopa : r.opa = s.regs.opa := h .opa (by decide)
  have hopb : r.opb = s.regs.opb := h .opb (by decide)
  have hopf : r.opf = s.regs.opf := setWidth_injective (by decide) (h .opf (by decide))
  simp only [execSolve, setRegs_regs, hopa, hopb, hopf]
  split
  · exact sameEffect_raise _ (by decide) 0 s r
  · exact sameEffect_complete _ rfl rfl (by simp [writesRegs, readReg])

theorem execPlanPll_sameEffect (h : SameOperands .planPll s r) :
    SameEffect .planPll (execPlanPll s) (execPlanPll (setRegs s r)) := by
  have hopa : r.opa = s.regs.opa := h .opa (by decide)
  have href : r.refEff = s.regs.refEff := h .refEff (by decide)
  simp only [execPlanPll, setRegs_regs, hopa, href]
  split
  · exact sameEffect_raise _ (by decide) 0 s r
  · split
    · exact sameEffect_raise _ (by decide) 0 s r
    · exact sameEffect_complete _ rfl rfl (by simp [writesRegs, readReg])

theorem execPlanMs_sameEffect {aux : Bool} (h : SameOperands (.planMs aux) s r) :
    SameEffect (.planMs aux) (execPlanMs aux s) (execPlanMs aux (setRegs s r)) := by
  have hopa : r.opa = s.regs.opa := h .opa (by simp [readsRegs])
  have hopb : r.opb = s.regs.opb := h .opb (by simp [readsRegs])
  simp only [execPlanMs, setRegs_regs, setRegs_params, hopa, hopb]
  cases planMs s.params s.regs.opa.toNat s.regs.opb.toNat aux with
  | none => exact sameEffect_raise _ (by decide) 0 s r
  | some plan => exact sameEffect_complete _ rfl rfl (by simp [writesRegs, readReg])

theorem execSelectRdiv_sameEffect (h : SameOperands .selectRdiv s r) :
    SameEffect .selectRdiv (execSelectRdiv s) (execSelectRdiv (setRegs s r)) := by
  have hopa : r.opa = s.regs.opa := h .opa (by decide)
  simp only [execSelectRdiv, setRegs_regs, setRegs_params, hopa]
  exact sameEffect_complete {} rfl rfl (by simp [writesRegs, readReg])

theorem execEncodeTriple_sameEffect {base : Byte} (h : SameOperands (.encodeTriple base) s r) :
    SameEffect (.encodeTriple base) (execEncodeTriple base s) (execEncodeTriple base (setRegs s r)) := by
  have hp1 : r.p1 = s.regs.p1 := setWidth_injective (by decide) (h .p1 (by simp [readsRegs]))
  have hp2 : r.p2 = s.regs.p2 := setWidth_injective (by decide) (h .p2 (by simp [readsRegs]))
  have hp3 : r.p3 = s.regs.p3 := setWidth_injective (by decide) (h .p3 (by simp [readsRegs]))
  simp only [execEncodeTriple, setRegs_regs, hp1, hp2, hp3, memWrite_setRegs]
  exact sameEffect_endPortCommand rfl _ r

theorem execEncodeAux_sameEffect {base : Byte} (h : SameOperands (.encodeAux base) s r) :
    SameEffect (.encodeAux base) (execEncodeAux base s) (execEncodeAux base (setRegs s r)) := by
  have hp1 : r.p1 = s.regs.p1 := setWidth_injective (by decide) (h .p1 (by simp [readsRegs]))
  simp only [execEncodeAux, setRegs_regs, hp1, memWrite_setRegs]
  split
  · exact sameEffect_raise _ (by decide) 0 s r
  · exact sameEffect_endPortCommand rfl _ r

theorem execEncodeCtrl_sameEffect {ch : Channel} (h : SameOperands (.encodeCtrl ch) s r) :
    SameEffect (.encodeCtrl ch) (execEncodeCtrl ch s) (execEncodeCtrl ch (setRegs s r)) := by
  have hctrl : r.ctrl = s.regs.ctrl := setWidth_injective (by decide) (h .ctrl (by simp [readsRegs]))
  simp only [execEncodeCtrl, setRegs_regs, setRegs_params, hctrl, updateControlFields_setRegs]
  exact sameEffect_endPortCommand rfl _ r

end

/-- Settles O20: command by command, with the operands it reads. -/
theorem commandReadsOnlyItsRegisters : Obligations.CommandReadsOnlyItsRegisters := by
  intro i s t r hreads hexec
  have heffect : SameEffect i (exec i s) (exec i (setRegs s r)) := by
    cases i with
    | nop => exact execNop_sameEffect
    | correctRef => exact execCorrectRef_sameEffect hreads
    | solve => exact execSolve_sameEffect hreads
    | planPll => exact execPlanPll_sameEffect hreads
    | planMs aux => exact execPlanMs_sameEffect hreads
    | selectRdiv => exact execSelectRdiv_sameEffect hreads
    | encodeTriple base => exact execEncodeTriple_sameEffect hreads
    | encodeAux base => exact execEncodeAux_sameEffect hreads
    | encodeCtrl ch => exact execEncodeCtrl_sameEffect hreads
  exact heffect t hexec

/-! ### A port that answers lets every step end (R76, R189, R213)

Each transaction takes one answer, so the answers held are counted down over a command's transactions. -/

/-- The port holds at least `m` answers to reads and `n` to writes. -/
def PortHolds (m n : Nat) (s : State) : Prop := m ≤ s.port.reads.length ∧ n ≤ s.port.writes.length

/-- The transactions were all answered, and where they are done the port still holds these answers. -/
def Answered {α : Type} (m n : Nat) : PortResult α → Prop
  | .done _ t => PortHolds m n t
  | .failed _ _ => True
  | .unanswered _ => False

theorem memRead_answered {m n : Nat} {s : State} (h : PortHolds (m + 1) n s) (addr : Byte) :
    Answered m n (memRead addr s) := by
  obtain ⟨hreads, hwrites⟩ := h
  unfold memRead
  split
  case h_1 hnone => simp [hnone] at hreads
  case h_2 d rest hok => exact ⟨by simpa [hok] using hreads, hwrites⟩
  case h_3 => trivial

theorem memWrite_answered {m n : Nat} {s : State} (h : PortHolds m (n + 1) s) (addr : Byte) (payload : List Byte) :
    Answered m n (memWrite addr payload s) := by
  obtain ⟨hreads, hwrites⟩ := h
  unfold memWrite
  split
  case h_1 hnone => simp [hnone] at hwrites
  case h_2 rest hok => exact ⟨hreads, by simpa [hok] using hwrites⟩
  case h_3 => trivial

theorem andThen_answered {α β : Type} {m n m' n' : Nat} {res : PortResult α} {k : α → State → PortResult β}
    (hres : Answered m n res) (hk : ∀ v t, PortHolds m n t → Answered m' n' (k v t)) : Answered m' n' (andThen res k) := by
  cases res with
  | done v t => exact hk v t hres
  | failed a t => trivial
  | unanswered t => exact hres.elim

/-- One field takes one answer of each kind at most. -/
theorem updateField_answered {m n : Nat} {s : State} (h : PortHolds (m + 1) (n + 1) s) (loc : Option FieldLoc) (w : Nat)
    (v : Byte) : Answered m n (updateField loc w v s) := by
  cases loc with
  | none =>
    obtain ⟨hreads, hwrites⟩ := h
    exact ⟨Nat.le_of_succ_le hreads, Nat.le_of_succ_le hwrites⟩
  | some l => exact andThen_answered (memRead_answered h l.addr) fun _ _ ht => memWrite_answered ht _ _

theorem updateControlFields_answered {s : State} (h : PortHolds 3 3 s) (l : ChannelLocs) (ctrl : BitVec 5) :
    Answered 0 0 (updateControlFields l ctrl s) :=
  andThen_answered (updateField_answered h l.int _ _) fun _ _ ht =>
    andThen_answered (updateField_answered ht l.rdiv _ _) fun _ _ hu => updateField_answered hu l.div4 _ _

theorem endPortCommand_ends {m n : Nat} {res : PortResult Unit} (h : Answered m n res) :
    ∃ t, endPortCommand res = .next t := by
  cases res with
  | done v t => exact ⟨_, rfl⟩
  | failed a t => exact ⟨_, rfl⟩
  | unanswered t => exact h.elim

theorem exec_ends_of_not_usesPort {i : Instr} (hi : usesPort i = false) (s : State) : ∃ t, exec i s = .next t := by
  rcases exec_cases i s with ⟨e, -, -, hx⟩ | ⟨-, f, u, hx, -⟩ | ⟨hport, -⟩
  · exact ⟨_, hx⟩
  · exact ⟨_, hx⟩
  · simp [hi] at hport

theorem exec_ends {s : State} (h : portReady s) (i : Instr) : ∃ t, exec i s = .next t := by
  cases i with
  | nop | correctRef | solve | planPll | planMs | selectRdiv => exact exec_ends_of_not_usesPort rfl s
  | encodeTriple base => exact endPortCommand_ends (memWrite_answered (m := 3) (n := 2) h base _)
  | encodeAux base =>
    simp only [exec, execEncodeAux]
    split
    · exact ⟨_, rfl⟩
    · exact endPortCommand_ends (memWrite_answered (m := 3) (n := 2) h base _)
  | encodeCtrl ch => exact endPortCommand_ends (updateControlFields_answered h _ _)

theorem execWord_ends {s : State} (h : portReady s) (w : CmdWord) : ∃ t, execWord w s = .next t := by
  cases hdecode : decode w with
  | ok i =>
    rw [execWord_of_decode_ok hdecode]
    exact exec_ends h i
  | error e => exact ⟨_, execWord_of_decode_error hdecode s⟩

/-- Storing the host's value takes no answer of the port. -/
theorem portReady_storeHostWrite {s : State} (h : portReady s) (i : Byte) (v : HostWord) :
    portReady (storeHostWrite i v s) := h

theorem perform_ends {s : State} (h : portReady s) (a : HostAccess) : ∃ t, perform a s = .next t := by
  cases a with
  | read i => exact ⟨_, rfl⟩
  | reset => exact ⟨_, rfl⟩
  | write i v =>
    by_cases hi : i = 0x00
    · subst hi
      exact execWord_ends (portReady_storeHostWrite h 0x00 v) _
    · exact ⟨_, hostWrite_of_ne_cmd hi v s⟩

/-- Settles O27: no command issues more than three reads and three writes, and only an unanswered transaction stops a step. -/
theorem answeringPortLetsEveryStepEnd : Obligations.AnsweringPortLetsEveryStepEnd := by
  intro s h
  cases hhost : s.host with
  | nil => exact ⟨s, step_of_host_nil hhost⟩
  | cons a rest =>
    rw [step_of_host_cons hhost]
    exact perform_ends (s := setHost s rest) h a

end Sys2Proof.Machine

/-! PROOFS of the family 40_divider: the fixed-point divider and the five commands that use it. First the divider's own bounds,
then per command an equation for each way it can end, from which its statements follow. -/

namespace Sys2Proof.Machine

/-! ### The fixed-point divider (40_divider.md R90, R92, R93) -/

theorem fpdFraction_of_dvd {n d : Nat} (h : d ∣ n) (f : Nat) : fpdFraction n d f = (0, 1) := by
  simp [fpdFraction, Nat.mod_eq_zero_of_dvd h]

/-- Settles O31: the remainder is 0. -/
theorem fpdExactDivision : Obligations.FpdExactDivision := fun n d f _ h => by
  rw [fpd, fpdFraction_of_dvd h]

theorem fpdFraction_fst_mul_le (n d f : Nat) : (fpdFraction n d f).1 * d ≤ n % d * f := Nat.div_mul_le_self _ _

theorem lt_succ_fpdFraction_fst_mul {n d f : Nat} (hd : 0 < d) : n % d * f < ((fpdFraction n d f).1 + 1) * d := by
  rw [Nat.mul_comm _ d]
  exact Nat.lt_mul_div_succ _ hd

/-- The denominator is `f` exactly where there is a fraction to name. -/
theorem fpdFraction_snd_of_pos {n d f : Nat} (h : 0 < (fpdFraction n d f).1) : (fpdFraction n d f).2 = f :=
  if_pos h.ne'

theorem fpdFraction_snd_of_eq_zero {n d f : Nat} (h : (fpdFraction n d f).1 = 0) : (fpdFraction n d f).2 = 1 :=
  if_neg (not_not.mpr h)

theorem fpdFraction_fst_lt_snd {n d f : Nat} (hd : 0 < d) : (fpdFraction n d f).1 < (fpdFraction n d f).2 := by
  rcases Nat.eq_zero_or_pos (fpdFraction n d f).1 with hb | hb
  · rw [fpdFraction_snd_of_eq_zero hb, hb]
    exact Nat.one_pos
  · rw [fpdFraction_snd_of_pos hb]
    exact fpdFraction_fst_lt hd (hb.trans_le (fpdFraction_fst_le n d f))

/-- `b/c` does not exceed the remainder's part of `n/d`. -/
theorem fpdFraction_fst_mul_le_snd (n d f : Nat) : (fpdFraction n d f).1 * d ≤ n % d * (fpdFraction n d f).2 := by
  rcases Nat.eq_zero_or_pos (fpdFraction n d f).1 with hb | hb
  · simp [hb]
  · rw [fpdFraction_snd_of_pos hb]
    exact fpdFraction_fst_mul_le n d f

/-- `a + b/c ≤ n/d`, cross-multiplied (R92). -/
theorem fpd_mul_le (n d f : Nat) : ((fpd n d f).a * (fpd n d f).c + (fpd n d f).b) * d ≤ n * (fpd n d f).c := by
  have hb : (fpd n d f).b * d ≤ n % d * (fpd n d f).c := fpdFraction_fst_mul_le_snd n d f
  calc ((fpd n d f).a * (fpd n d f).c + (fpd n d f).b) * d
      = d * (n / d) * (fpd n d f).c + (fpd n d f).b * d := by simp only [fpd]; ring
    _ ≤ d * (n / d) * (fpd n d f).c + n % d * (fpd n d f).c := Nat.add_le_add_left hb _
    _ = n * (fpd n d f).c := by rw [← Nat.add_mul, Nat.div_add_mod]

/-- `n/d < a + (b + 1)/f`, cross-multiplied (R92). -/
theorem lt_fpd_succ_mul {d : Nat} (hd : 0 < d) (n f : Nat) : n * f < ((fpd n d f).a * f + (fpd n d f).b + 1) * d := by
  have hb : n % d * f < ((fpd n d f).b + 1) * d := lt_succ_fpdFraction_fst_mul hd
  calc n * f = d * (n / d) * f + n % d * f := by rw [← Nat.add_mul, Nat.div_add_mod]
    _ < d * (n / d) * f + ((fpd n d f).b + 1) * d := Nat.add_lt_add_left hb _
    _ = ((fpd n d f).a * f + (fpd n d f).b + 1) * d := by simp only [fpd]; ring

/-- Settles O30: `b` is the floor of `r * f / d`. -/
theorem fpdBounds : Obligations.FpdBounds := fun n d f hd =>
  ⟨(Nat.div_add_mod' n d).symm, Nat.mod_lt n hd, fpdFraction_fst_lt hd,
    fun hf => Nat.le_zero.mp (hf ▸ fpdFraction_fst_le n d f),
    fun hb => ⟨fpdFraction_snd_of_pos hb, fpdFraction_fst_lt_snd hd⟩, fpdFraction_snd_of_eq_zero,
    Nat.one_le_of_lt (fpdFraction_fst_lt_snd hd),
    fun _ => ⟨fpdFraction_fst_mul_le n d f, lt_succ_fpdFraction_fst_mul hd⟩, fpd_mul_le n d f,
    fun _ => lt_fpd_succ_mul hd n f⟩

/-! ### SOLVE (R91) -/

/-- Settles O32: `a ≤ n`, `b ≤ f` and `c ≤ max 1 f`. -/
theorem solveWritesTheDividerTriple : Obligations.SolveWritesTheDividerTriple := by
  refine ⟨fun w => decodeReadsExactlyTheReadFields w .solve, fun s => ⟨fun hd => ?_, fun hd => ?_⟩⟩
  · simp only [exec, execSolve, if_pos hd, raise]
  · have hf := s.regs.opf.isLt
    have hb := fpdFraction_fst_le s.regs.opa.toNat s.regs.opb.toNat s.regs.opf.toNat
    have hc := fpdFraction_snd_le s.regs.opa.toNat s.regs.opb.toNat s.regs.opf.toNat
    refine ⟨(Nat.div_le_self _ _).trans_lt s.regs.opa.isLt, hb.trans_lt hf, ?_, ?_⟩
    · rw [← fpdFraction_snd]
      omega
    · rw [← fpdFraction_snd]
      simp only [exec, execSolve, if_neg hd]
      rfl

/-! ### CORRECT_REF (R95, R96, R97) -/

theorem refInRange_iff (e : Int) : refInRange e = true ↔ 1 ≤ e ∧ e ≤ 2 ^ 64 - 1 := by
  simp [refInRange]

/-- CORRECT_REF where the corrected reference fits REF_EFF. -/
theorem exec_correctRef_of_inRange {s : State}
    (h : refInRange (correctedRef s.regs.refNom.toNat s.regs.refPpb.toInt) = true) :
    exec .correctRef s = .next (complete {} (setRefEff s
      (BitVec.ofInt 64 (correctedRef s.regs.refNom.toNat s.regs.refPpb.toInt)))) := by
  simp only [exec, execCorrectRef, if_pos h]

/-- CORRECT_REF where the corrected reference does not fit REF_EFF. -/
theorem exec_correctRef_of_not_inRange {s : State}
    (h : ¬ refInRange (correctedRef s.regs.refNom.toNat s.regs.refPpb.toInt) = true) :
    exec .correctRef s = .next (raise .refRange 0 s) := by
  simp only [exec, execCorrectRef, if_neg h]

theorem toNat_ofInt_of_refInRange {e : Int} (h : refInRange e = true) : ((BitVec.ofInt 64 e).toNat : Int) = e := by
  obtain ⟨hlo, hhi⟩ := (refInRange_iff e).mp h
  rw [BitVec.toNat_ofInt]
  omega

/-- Settles O33: the two ranges of the corrected value are the two ways the command can end. -/
theorem correctRefWritesTheCorrectedReference : Obligations.CorrectRefWritesTheCorrectedReference := by
  refine ⟨fun w => decodeReadsExactlyTheReadFields w .correctRef, fun s => ⟨fun hout => ?_, fun hlo hhi => ?_⟩⟩
  · refine exec_correctRef_of_not_inRange fun hin => ?_
    obtain ⟨hlo, hhi⟩ := (refInRange_iff _).mp hin
    exact hout.elim (not_lt.mpr hlo) (not_lt.mpr hhi)
  · have hin := (refInRange_iff (correctedRef s.regs.refNom.toNat s.regs.refPpb.toInt)).mpr ⟨hlo, hhi⟩
    exact ⟨toNat_ofInt_of_refInRange hin, exec_correctRef_of_inRange hin⟩

/-- Settles O34: the quotient of the magnitudes, with the sign of `ppb`. -/
theorem correctionTruncatesTowardZero : Obligations.CorrectionTruncatesTowardZero := by
  intro nom ppb
  rw [correctedRef]
  split
  · next hpos =>
    obtain ⟨n, rfl⟩ := Int.eq_ofNat_of_zero_le hpos
    rfl
  · next hneg =>
    obtain ⟨n, rfl⟩ := Int.exists_eq_neg_ofNat (not_le.mp hneg).le
    rw [Int.neg_mul, Int.neg_tdiv, Int.natAbs_neg, Int.natAbs_natCast]
    rfl

/-- Settles O35: the command reads REF_NOM and REF_PPB and writes neither. -/
theorem correctRefTwiceIsCorrectRefOnce : Obligations.CorrectRefTwiceIsCorrectRefOnce := by
  intro s t h
  by_cases hin : refInRange (correctedRef s.regs.refNom.toNat s.regs.refPpb.toInt) = true
  · obtain rfl := next_unique h (exec_correctRef_of_inRange hin)
    exact exec_correctRef_of_inRange hin
  · obtain rfl := next_unique h (exec_correctRef_of_not_inRange hin)
    exact exec_correctRef_of_not_inRange hin

/-! ### STATUS at the end of a command (R26, R27) -/

@[simp] theorem statusErr_errStatus (e : ErrCode) (a : Byte) : statusErr (errStatus e a) = errBits e :=
  statusErr_statusWord e {} a

@[simp] theorem statusErr_okStatus (f : Flags) : statusErr (okStatus f) = 0 := statusErr_statusWord .ok f 0

@[simp] theorem statusClamped_okStatus (f : Flags) : statusClamped (okStatus f) = f.clamped :=
  statusClamped_statusWord .ok f 0

@[simp] theorem statusDivBy4_okStatus (f : Flags) : statusDivBy4 (okStatus f) = f.divBy4 :=
  statusDivBy4_statusWord .ok f 0

@[simp] theorem statusIntMode_okStatus (f : Flags) : statusIntMode (okStatus f) = f.intMode :=
  statusIntMode_statusWord .ok f 0

/-- An error code other than OK contradicts a completion. -/
theorem errBits_ne_zero {e : ErrCode} (h : e ≠ .ok) : errBits e ≠ 0 := by
  cases e with
  | ok => exact absurd rfl h
  | _ => decide

theorem not_completed_raise {e : ErrCode} (he : e ≠ .ok) {a : Byte} {s : State} :
    ¬ statusErr (raise e a s).regs.status = 0 := by
  rw [raise_regs, statusErr_errStatus]
  exact errBits_ne_zero he

/-! ### The PLL feedback plan (R100 to R104) -/

theorem pllTarget_eq (ref t : Nat) :
    pllTarget ref t = if t / ref < 24 then ref * 24 else if 36 < t / ref then ref * 36 else t := rfl

/-- The target is re-derived so that its quotient is the clamped integer part (R94, R100). -/
theorem pllTarget_div {ref : Nat} (href : 0 < ref) (t : Nat) : pllTarget ref t / ref = clamp (t / ref) 24 36 := by
  rw [pllTarget_eq, clamp]
  split_ifs
  · exact Nat.mul_div_cancel_left _ href
  · exact Nat.mul_div_cancel_left _ href
  · rfl

/-- The plan is the divider's answer to the re-derived target. -/
theorem planPll_triple {ref : Nat} (href : 0 < ref) (t : Nat) :
    (planPll ref t).triple = fpd (pllTarget ref t) ref 1000000 := by
  rw [fpd, pllTarget_div href]
  rfl

theorem planPll_clamped (ref t : Nat) : (planPll ref t).clamped = (decide (t / ref < 24) || decide (36 < t / ref)) := rfl

/-- A clamped target is a multiple of the reference (R100). -/
theorem dvd_pllTarget_of_clamped {ref t : Nat} (h : (planPll ref t).clamped = true) : ref ∣ pllTarget ref t := by
  rw [pllTarget_eq]
  split_ifs with hlo hhi
  · exact Nat.dvd_mul_right ref _
  · exact Nat.dvd_mul_right ref _
  · simp [planPll_clamped, hlo, hhi] at h

theorem pllTarget_of_not_clamped {ref t : Nat} (h : (planPll ref t).clamped = false) : pllTarget ref t = t := by
  rw [planPll_clamped, Bool.or_eq_false_iff, decide_eq_false_iff_not, decide_eq_false_iff_not] at h
  rw [pllTarget_eq, if_neg h.1, if_neg h.2]

/-- Only a target below `24 ref` is clamped upward. -/
theorem pllTarget_le {ref t : Nat} (h : ref * 24 ≤ t) : pllTarget ref t ≤ t := by
  rw [pllTarget_eq]
  split_ifs with hlo hhi
  · exact h
  · exact (Nat.mul_le_mul_left ref hhi.le).trans (Nat.mul_div_le t ref)
  · exact le_rfl

/-- `ref * (a + b/c)` truncated lies in `[ref * a, ref * (a + 1))` for a proper fraction `b/c`. -/
theorem realizedVco_mem {ref : Nat} (href : 0 < ref) {tr : Triple} (h : tr.b < tr.c) :
    ref * tr.a ≤ realizedVco ref tr ∧ realizedVco ref tr < ref * (tr.a + 1) := by
  have hc : 0 < tr.c := Nat.zero_lt_of_lt h
  constructor
  · rw [realizedVco, Nat.le_div_iff_mul_le hc, Nat.mul_assoc]
    exact Nat.mul_le_mul_left ref (Nat.le_add_right _ _)
  · rw [realizedVco, Nat.div_lt_iff_lt_mul hc, Nat.mul_assoc, Nat.succ_mul]
    exact Nat.mul_lt_mul_of_pos_left (Nat.add_lt_add_left h _) href

/-- The divider truncates, so the realized frequency never exceeds the frequency it was asked for (R92, R104). -/
theorem realizedVco_fpd_le (n d f : Nat) : realizedVco d (fpd n d f) ≤ n := by
  refine Nat.div_le_of_le_mul ?_
  rw [Nat.mul_comm d, Nat.mul_comm _ n]
  exact fpd_mul_le n d f

theorem planPll_vco_le (ref t : Nat) (href : 0 < ref) : (planPll ref t).vco ≤ pllTarget ref t :=
  calc (planPll ref t).vco = realizedVco ref (planPll ref t).triple := rfl
    _ ≤ pllTarget ref t := planPll_triple href t ▸ realizedVco_fpd_le _ _ _

/-- The realized frequency lies in `[24 ref, 37 ref)` (R103). -/
theorem planPll_vco_mem {ref : Nat} (href : 0 < ref) (t : Nat) :
    ref * 24 ≤ (planPll ref t).vco ∧ (planPll ref t).vco < ref * 37 := by
  obtain ⟨halo, hahi⟩ : 24 ≤ (planPll ref t).triple.a ∧ (planPll ref t).triple.a ≤ 36 := clamp_mem (by decide)
  have hbc : (planPll ref t).triple.b < (planPll ref t).triple.c := fpdFraction_fst_lt_snd href
  obtain ⟨hlo, hhi⟩ := realizedVco_mem href hbc
  exact ⟨(Nat.mul_le_mul_left ref halo).trans hlo, hhi.trans_le (Nat.mul_le_mul_left ref (Nat.succ_le_succ hahi))⟩

/-- Integer feedback in range is planned exactly (R102). -/
theorem planPll_of_multiple {ref a : Nat} (href : 0 < ref) (hlo : 24 ≤ a) (hhi : a ≤ 36) :
    planPll ref (ref * a) = { triple := { a := a, b := 0, c := 1 }, vco := ref * a, clamped := false } := by
  have hdiv : ref * a / ref = a := Nat.mul_div_cancel_left a href
  have htarget : pllTarget ref (ref * a) = ref * a := by
    rw [pllTarget_eq, hdiv, if_neg (not_lt.mpr hlo), if_neg (not_lt.mpr hhi)]
  have hclamp : clamp a 24 36 = a := clamp_of_mem hlo hhi
  simp [planPll, htarget, hdiv, hclamp, fpdFraction_of_dvd (Nat.dvd_mul_right ref a), realizedVco, constants,
    hlo, hhi]

/-! ### PLAN_PLL (R101) -/

theorem toNat_ofNat_of_lt {w n : Nat} (h : n < 2 ^ w) : (BitVec.ofNat w n).toNat = n := by
  rw [BitVec.toNat_ofNat, Nat.mod_eq_of_lt h]

/-- The state a completed PLAN_PLL leaves for a plan. -/
def afterPlanPll (s : State) (plan : PllPlan) : State :=
  complete { clamped := plan.clamped, intMode := plan.triple.b == 0 }
    (setResFreq (writeTriple s plan.triple) (BitVec.ofNat 64 plan.vco))

theorem exec_planPll_of_overflow {s : State} (href : s.regs.refEff.toNat ≠ 0)
    (h : 2 ^ 64 - 1 < (planPll s.regs.refEff.toNat s.regs.opa.toNat).vco) :
    exec .planPll s = .next (raise .overflow 0 s) := by
  simp only [exec, execPlanPll, if_neg href, if_pos h]

theorem exec_planPll_of_fits {s : State} (href : s.regs.refEff.toNat ≠ 0)
    (h : (planPll s.regs.refEff.toNat s.regs.opa.toNat).vco ≤ 2 ^ 64 - 1) :
    exec .planPll s = .next (afterPlanPll s (planPll s.regs.refEff.toNat s.regs.opa.toNat)) := by
  simp only [exec, execPlanPll, if_neg href, if_neg (not_lt.mpr h), afterPlanPll]

/-- What a PLAN_PLL without an error says of its start and its end. -/
theorem exec_planPll_completed {s t : State} (h : exec .planPll s = .next t) (herr : statusErr t.regs.status = 0) :
    0 < s.regs.refEff.toNat ∧ t = afterPlanPll s (planPll s.regs.refEff.toNat s.regs.opa.toNat) ∧
    t.regs.resFreq.toNat = (planPll s.regs.refEff.toNat s.regs.opa.toNat).vco := by
  by_cases href : s.regs.refEff.toNat = 0
  · obtain rfl := next_unique h (exec_planPll_of_refEff_zero (BitVec.eq_of_toNat_eq href))
    exact absurd herr (not_completed_raise (by decide))
  · rcases Nat.lt_or_ge (2 ^ 64 - 1) (planPll s.regs.refEff.toNat s.regs.opa.toNat).vco with hbig | hfits
    · obtain rfl := next_unique h (exec_planPll_of_overflow href hbig)
      exact absurd herr (not_completed_raise (by decide))
    · obtain rfl := next_unique h (exec_planPll_of_fits href hfits)
      exact ⟨Nat.pos_of_ne_zero href, rfl, toNat_ofNat_of_lt (by omega)⟩

/-- The plan with its fraction and realized frequency written out (R101, R104). -/
theorem planPll_eq (ref t : Nat) :
    let a := clamp (t / ref) 24 36
    let b := pllTarget ref t % ref * 1000000 / ref
    let c := if b = 0 then 1 else 1000000
    planPll ref t =
      { triple := { a := a, b := b, c := c }
        vco := ref * (a * c + b) / c
        clamped := t / ref < 24 || 36 < t / ref } := by
  simp only [planPll, realizedVco, fpdFraction_fst, fpdFraction_snd]
  rfl

/-- Settles O36: each clause is the command's equation for that end, with the plan written out. -/
theorem planPllWritesTheFeedbackTriple : Obligations.PlanPllWritesTheFeedbackTriple := by
  refine ⟨fun w => decodeReadsExactlyTheReadFields w .planPll, fun s => ⟨fun href => ?_, fun href hbig => ?_,
    fun href hfits => ?_⟩⟩
  · exact exec_planPll_of_refEff_zero (BitVec.eq_of_toNat_eq href)
  · exact exec_planPll_of_overflow href (by rw [planPll_eq]; exact hbig)
  · have hb := fpdFraction_fst_le (pllTarget s.regs.refEff.toNat s.regs.opa.toNat) s.regs.refEff.toNat 1000000
    have hc := fpdFraction_snd_le (pllTarget s.regs.refEff.toNat s.regs.opa.toNat) s.regs.refEff.toNat 1000000
    have ha : clamp (s.regs.opa.toNat / s.regs.refEff.toNat) 24 36 ≤ 36 := (clamp_mem (by decide)).2
    rw [fpdFraction_snd] at hc
    refine ⟨pllTarget_div (Nat.pos_of_ne_zero href) _, ha.trans_lt (by decide), hb.trans_lt (by decide),
      hc.trans_lt (by decide), ?_⟩
    rw [exec_planPll_of_fits href (by rw [planPll_eq]; exact hfits), planPll_eq]
    rfl

/-- Settles O37: the target is a multiple of the reference, so the fraction is zero and the realized frequency is the target. -/
theorem planPllRecoversIntegerFeedback : Obligations.PlanPllRecoversIntegerFeedback := by
  intro s a href hlo hhi hopa
  have hplan := planPll_of_multiple href hlo hhi
  rw [← hopa] at hplan
  rw [exec_planPll_of_fits (Nat.ne_of_gt href) (by rw [hplan]; exact Nat.le_pred_of_lt s.regs.opa.isLt), hplan]
  simp [afterPlanPll, complete, setResFreq, setStatus, writeTriple, setTriple]

/-- Settles O38: the clamped integer part is 24 to 36, and only a clamp changes the target. -/
theorem planPllRealizedFrequencyRange : Obligations.PlanPllRealizedFrequencyRange := by
  intro s t h herr
  obtain ⟨href, rfl, hfreq⟩ := exec_planPll_completed h herr
  obtain ⟨hlo, hhi⟩ := planPll_vco_mem href s.regs.opa.toNat
  refine ⟨hfreq ▸ hlo, hfreq ▸ hhi, fun hfree => ?_, fun hclamped => ?_⟩
  · have htarget := pllTarget_of_not_clamped ((statusClamped_okStatus _).symm.trans hfree)
    rw [hfreq]
    exact (planPll_vco_le _ _ href).trans htarget.le
  · have hdvd := dvd_pllTarget_of_clamped ((statusClamped_okStatus _).symm.trans hclamped)
    have htriple := planPll_triple href s.regs.opa.toNat
    rw [fpd, fpdFraction_of_dvd hdvd] at htriple
    simp [afterPlanPll, htriple]

/-- A state with FREQ_MULT = 1 where `24 * REF_EFF` is above VCO_MAX and the target is in the VCO range. -/
def referenceAboveVcoRange : State :=
  { State.reset with
    regs := { Regs.reset with refEff := 100000000, opa := 700000000 }
    params := { freqMult := 1, locs := Vector.replicate 8 { int := none, rdiv := none, div4 := none }, portAutoinc := false } }

theorem referenceAboveVcoRange_vco :
    planPll referenceAboveVcoRange.regs.refEff.toNat referenceAboveVcoRange.regs.opa.toNat =
      { triple := { a := 24, b := 0, c := 1 }, vco := 2400000000, clamped := true } := by decide

/-- Refutes O39: a target of 700,000,000 is clamped up to `24 * 100,000,000`. -/
theorem not_planPllVcoRangeAsR103InfersIt : ¬ Obligations.PlanPllVcoRangeAsR103InfersIt := by
  intro h
  have hexec := exec_planPll_of_fits (s := referenceAboveVcoRange) (by decide)
    (by rw [referenceAboveVcoRange_vco]; decide)
  rw [referenceAboveVcoRange_vco] at hexec
  have hrange := h _ _ (by decide) hexec (statusErr_complete _ _) (by decide) (by decide) (by decide)
  exact absurd hrange.2 (by decide)

/-- Settles O40: the re-derived target does not exceed the target. -/
theorem planPllVcoRangeForAnUnclampedTarget : Obligations.PlanPllVcoRangeForAnUnclampedTarget := by
  intro s t h herr hmin hopa hmax
  obtain ⟨href, rfl, hfreq⟩ := exec_planPll_completed h herr
  rw [hfreq]
  exact ⟨hmin.trans (planPll_vco_mem href _).1, ((planPll_vco_le _ _ href).trans (pllTarget_le hopa)).trans hmax⟩

/-! ### The output divider plan (R110 to R115)

`msTarget` and `fixedTarget` name the two frequencies PLAN_MS works with: the clamped target, and in PLL-fixed mode the target
re-derived from a clamped divider. `planMs_free` and `planMs_fixed` say that `planMs` is these plans. -/

/-- The target clamped to the output range (R110). -/
def msTarget (p : Params) (t : Nat) : Nat := clamp t (outMin p) (outMax p)

/-- The target of PLL-fixed mode, re-derived where the divider is clamped to 6 or `amax` (R94, R113). -/
def fixedTarget (pll f amax : Nat) : Nat := if pll / f < 6 then pll / 6 else if amax < pll / f then pll / amax else f

theorem freqMult_mem_of_wf {p : Params} (h : p.wf = true) : 1 ≤ p.freqMult ∧ p.freqMult ≤ 20496382304 :=
  (freqMultInRange_iff _).mp (Bool.and_eq_true_iff.mp h).1

theorem msAMaxFor_mem (aux : Bool) : 6 ≤ msAMaxFor aux ∧ msAMaxFor aux ≤ 1800 := by cases aux <;> decide

theorem msTarget_eq (p : Params) (t : Nat) :
    msTarget p t = if t < 500000 * p.freqMult then 500000 * p.freqMult
      else if 225000000 * p.freqMult < t then 225000000 * p.freqMult else t := rfl

theorem msTarget_mem (p : Params) (t : Nat) :
    500000 * p.freqMult ≤ msTarget p t ∧ msTarget p t ≤ 225000000 * p.freqMult :=
  clamp_mem (Nat.mul_le_mul_right _ (by decide))

theorem msTarget_pos {p : Params} (h : p.wf = true) (t : Nat) : 0 < msTarget p t := by
  have hm := (freqMult_mem_of_wf h).1
  have hf := (msTarget_mem p t).1
  omega

/-- Below DIVBY4_MIN and from OUT_MIN on the target is not clamped. -/
theorem msTarget_of_mem {p : Params} {t : Nat} (hlo : 500000 * p.freqMult ≤ t) (hhi : t < 150000000 * p.freqMult) :
    msTarget p t = t :=
  clamp_of_mem hlo (hhi.le.trans (Nat.mul_le_mul_right _ (by decide)))

/-- DIVBY4_MIN lies in the output range, so clamping does not move a target across it. -/
theorem divBy4Min_le_msTarget_iff (p : Params) (t : Nat) :
    150000000 * p.freqMult ≤ msTarget p t ↔ 150000000 * p.freqMult ≤ t := by
  rw [msTarget_eq]
  split_ifs <;> omega

/-! #### PLL not yet fixed (R112) -/

theorem forceDivider_le (k : Nat) : forceDivider k ≤ k := by
  unfold forceDivider
  split_ifs <;> omega

/-- Forcing 5 to 4 and 7 to 6 keeps at least two thirds of the next divider. -/
theorem two_mul_succ_le_forceDivider {k : Nat} (h : 4 ≤ k) : 2 * (k + 1) ≤ 3 * forceDivider k := by
  unfold forceDivider
  split_ifs <;> omega

theorem freeDivider_le (p : Params) (t : Nat) : freeDivider p (msTarget p t) ≤ 1800 := by
  have hquot : vcoMax p / msTarget p t ≤ 1800 := by
    refine Nat.div_le_of_le_mul ?_
    have hf := (msTarget_mem p t).1
    have hvco : vcoMax p = 900000000 * p.freqMult := rfl
    omega
  exact (forceDivider_le _).trans hquot

theorem freeDivider_mul_le (p : Params) (f : Nat) : freeDivider p f * f ≤ 900000000 * p.freqMult :=
  (Nat.mul_le_mul_right f (forceDivider_le _)).trans (Nat.div_mul_le_self _ f)

/-- The PLL frequency of PLL-not-yet-fixed mode is above VCO_MIN (R112). -/
theorem lt_freeDivider_mul {p : Params} (h : p.wf = true) (t : Nat) :
    600000000 * p.freqMult < freeDivider p (msTarget p t) * msTarget p t := by
  have hpos := msTarget_pos h t
  have hvco : vcoMax p = 900000000 * p.freqMult := rfl
  have hquot : 4 ≤ vcoMax p / msTarget p t := by
    rw [Nat.le_div_iff_mul_le hpos]
    have hf := (msTarget_mem p t).2
    omega
  have hnext : vcoMax p < msTarget p t * (vcoMax p / msTarget p t + 1) := Nat.lt_mul_div_succ _ hpos
  have hforce := Nat.mul_le_mul_left (msTarget p t) (two_mul_succ_le_forceDivider hquot)
  rw [freeDivider, Nat.mul_comm _ (msTarget p t)]
  rw [Nat.mul_left_comm _ 2, Nat.mul_left_comm _ 3] at hforce
  omega

theorem freeDivider_mul_lt {p : Params} (h : p.wf = true) (f : Nat) : freeDivider p f * f < 2 ^ 64 := by
  have hm := (freqMult_mem_of_wf h).2
  have hle := freeDivider_mul_le p f
  omega

/-- The plan of PLL-not-yet-fixed mode (R112). -/
def freePlan (p : Params) (t : Nat) : MsPlan :=
  let f := msTarget p t
  let d4 := decide (150000000 * p.freqMult ≤ f)
  { triple := overrideBy4 d4 { a := freeDivider p f, b := 0, c := 1 }
    pll := freeDivider p f * f
    clamped := f != t
    divBy4 := d4 }

/-- With OPB = 0 AUX does not enter (R119). -/
theorem planMs_free (p : Params) (t : Nat) (aux : Bool) : planMs p t 0 aux = some (freePlan p t) := rfl

/-! #### PLL fixed (R113) -/

/-- The re-derived target vanishes exactly where the PLL frequency is below the smallest divider (R110). -/
theorem fixedTarget_eq_zero_iff {pll f amax : Nat} (hf : 0 < f) (hamax : 6 ≤ amax) :
    fixedTarget pll f amax = 0 ↔ pll < 6 := by
  have hquot : pll / f ≤ pll := Nat.div_le_self pll f
  unfold fixedTarget
  split_ifs with hlo hhi
  · omega
  · rw [Nat.div_eq_zero_iff]
    omega
  · omega

theorem fixedTriple_eq (pll f : Nat) (aux : Bool) :
    fixedTriple pll f aux = if fixedTarget pll f (msAMaxFor aux) = 0 then none else some
      { a := clamp (pll / f) 6 (msAMaxFor aux)
        b := (fpdFraction pll (fixedTarget pll f (msAMaxFor aux)) 1000000).1
        c := (fpdFraction pll (fixedTarget pll f (msAMaxFor aux)) 1000000).2 } := by
  have htarget : (if pll / f = clamp (pll / f) 6 (msAMaxFor aux) then f else pll / clamp (pll / f) 6 (msAMaxFor aux)) =
      fixedTarget pll f (msAMaxFor aux) := by
    unfold clamp fixedTarget
    split_ifs <;> omega
  rw [← htarget]
  rfl

/-- The plan of PLL-fixed mode, for a re-derived target that is not 0, with its fraction written out (R113). -/
def fixedPlan (p : Params) (t pll : Nat) (aux : Bool) : MsPlan :=
  let f := msTarget p t
  let d4 := decide (150000000 * p.freqMult ≤ f)
  let f' := fixedTarget pll f (msAMaxFor aux)
  let b := pll % f' * 1000000 / f'
  { triple := overrideBy4 d4 { a := clamp (pll / f) 6 (msAMaxFor aux), b := b, c := if b = 0 then 1 else 1000000 }
    pll := pll
    clamped := f != t || pll / f < 6 || msAMaxFor aux < pll / f
    divBy4 := d4 }

theorem planMs_fixed (p : Params) (t : Nat) {pll : Nat} (h : pll ≠ 0) (aux : Bool) :
    planMs p t pll aux =
      if fixedTarget pll (msTarget p t) (msAMaxFor aux) = 0 then none else some (fixedPlan p t pll aux) := by
  have htriple := fixedTriple_eq pll (msTarget p t) aux
  rw [fpdFraction_snd] at htriple
  by_cases hzero : fixedTarget pll (msTarget p t) (msAMaxFor aux) = 0
  · rw [if_pos hzero] at htriple ⊢
    rw [msTarget] at htriple
    simp only [planMs, if_neg h, htriple]
  · rw [if_neg hzero] at htriple ⊢
    rw [msTarget] at htriple
    simp only [planMs, if_neg h, htriple]
    rfl

/-! #### The divide-by-4 override (R114) -/

theorem overrideBy4_b_eq_zero (d4 : Bool) (tr : Triple) : ((overrideBy4 d4 tr).b == 0) = (d4 || tr.b == 0) := by
  cases d4 <;> rfl

theorem overrideBy4_a_le (d4 : Bool) (tr : Triple) : (overrideBy4 d4 tr).a ≤ tr.a := by
  cases d4
  · exact le_rfl
  · exact Nat.zero_le _

theorem writeTriple_overrideBy4 (d4 : Bool) (tr : Triple) (s : State) :
    writeTriple s (overrideBy4 d4 tr) = setTriple s (if d4 then 0 else BitVec.ofNat 64 tr.a)
      (if d4 then 0 else BitVec.ofNat 20 tr.b) (if d4 then 1 else BitVec.ofNat 20 tr.c) := by
  cases d4 <;> rfl

theorem writeTriple_overrideBy4_integer (d4 : Bool) (a : Nat) (s : State) :
    writeTriple s (overrideBy4 d4 { a := a, b := 0, c := 1 }) =
      setTriple s (if d4 then 0 else BitVec.ofNat 64 a) 0 1 := by
  cases d4 <;> rfl

/-- Every plan, in either mode, is a triple with a divider of at most 1800 under the override of its DIVBY4 flag. -/
theorem planMs_some {p : Params} {t pll : Nat} {aux : Bool} {plan : MsPlan}
    (h : planMs p t pll aux = some plan) :
    plan.divBy4 = decide (150000000 * p.freqMult ≤ t) ∧
    ∃ tr : Triple, plan.triple = overrideBy4 plan.divBy4 tr ∧ tr.a ≤ 1800 := by
  rw [← decide_eq_decide.mpr (divBy4Min_le_msTarget_iff p t)]
  by_cases hpll : pll = 0
  · subst hpll
    rw [planMs_free] at h
    cases h
    exact ⟨rfl, _, rfl, freeDivider_le p t⟩
  · rw [planMs_fixed p t hpll] at h
    split at h
    · cases h
    · cases h
      exact ⟨rfl, _, rfl, (clamp_mem (msAMaxFor_mem aux).1).2.trans (msAMaxFor_mem aux).2⟩

/-! ### PLAN_MS (R110) -/

/-- The state a completed PLAN_MS leaves for a plan. -/
def afterPlanMs (s : State) (plan : MsPlan) : State :=
  complete { clamped := plan.clamped, divBy4 := plan.divBy4, intMode := plan.triple.b == 0 }
    (setResFreq (writeTriple s plan.triple) (BitVec.ofNat 64 plan.pll))

theorem exec_planMs_of_none {s : State} {aux : Bool}
    (h : planMs s.params s.regs.opa.toNat s.regs.opb.toNat aux = none) :
    exec (.planMs aux) s = .next (raise .zeroDivisor 0 s) := by simp only [exec, execPlanMs, h]

theorem exec_planMs_of_some {s : State} {aux : Bool} {plan : MsPlan}
    (h : planMs s.params s.regs.opa.toNat s.regs.opb.toNat aux = some plan) :
    exec (.planMs aux) s = .next (afterPlanMs s plan) := by simp only [exec, execPlanMs, h, afterPlanMs]

/-- What a PLAN_MS without an error says of its end. -/
theorem exec_planMs_completed {s t : State} {aux : Bool} (h : exec (.planMs aux) s = .next t)
    (herr : statusErr t.regs.status = 0) :
    ∃ plan, planMs s.params s.regs.opa.toNat s.regs.opb.toNat aux = some plan ∧ t = afterPlanMs s plan := by
  cases hplan : planMs s.params s.regs.opa.toNat s.regs.opb.toNat aux with
  | none =>
    obtain rfl := next_unique h (exec_planMs_of_none hplan)
    exact absurd herr (not_completed_raise (by decide))
  | some plan => exact ⟨plan, rfl, next_unique h (exec_planMs_of_some hplan)⟩

/-- PLAN_MS with OPB = 0. -/
theorem exec_planMs_free {s : State} (h : s.regs.opb.toNat = 0) (aux : Bool) :
    exec (.planMs aux) s = .next (afterPlanMs s (freePlan s.params s.regs.opa.toNat)) :=
  exec_planMs_of_some (by rw [h, planMs_free])

/-- PLAN_MS with OPB not 0 where the re-derived target is 0. -/
theorem exec_planMs_of_fixedTarget_zero {s : State} {aux : Bool} (h : s.regs.opb.toNat ≠ 0)
    (hzero : fixedTarget s.regs.opb.toNat (msTarget s.params s.regs.opa.toNat) (msAMaxFor aux) = 0) :
    exec (.planMs aux) s = .next (raise .zeroDivisor 0 s) :=
  exec_planMs_of_none (by rw [planMs_fixed _ _ h, if_pos hzero])

/-- PLAN_MS with OPB not 0 where the re-derived target is not 0. -/
theorem exec_planMs_of_fixedTarget_pos {s : State} {aux : Bool} (h : s.regs.opb.toNat ≠ 0)
    (hpos : fixedTarget s.regs.opb.toNat (msTarget s.params s.regs.opa.toNat) (msAMaxFor aux) ≠ 0) :
    exec (.planMs aux) s = .next (afterPlanMs s (fixedPlan s.params s.regs.opa.toNat s.regs.opb.toNat aux)) :=
  exec_planMs_of_some (by rw [planMs_fixed _ _ h, if_neg hpos])

/-- Settles O41: each clause is the command's equation for that end, with the override taken apart. -/
theorem planMsWritesTheOutputTriple : Obligations.PlanMsWritesTheOutputTriple := by
  refine ⟨fun w aux => ?_, fun s aux hwf => ⟨fun hpll => ?_, fun hpll hzero => ?_, fun hpll hpos => ?_⟩⟩
  · rw [decodeReadsExactlyTheReadFields w (.planMs aux)]
    cases aux <;> rfl
  · refine ⟨freeDivider_mul_lt hwf _, ?_⟩
    rw [exec_planMs_free hpll, afterPlanMs, freePlan, writeTriple_overrideBy4_integer, overrideBy4_b_eq_zero,
      beq_self_eq_true, Bool.or_true]
    rfl
  · exact exec_planMs_of_fixedTarget_zero hpll hzero
  · have hb := fpdFraction_fst_le s.regs.opb.toNat
      (fixedTarget s.regs.opb.toNat (msTarget s.params s.regs.opa.toNat) (msAMaxFor aux)) 1000000
    have hc := fpdFraction_snd_le s.regs.opb.toNat
      (fixedTarget s.regs.opb.toNat (msTarget s.params s.regs.opa.toNat) (msAMaxFor aux)) 1000000
    have ha : clamp (s.regs.opb.toNat / msTarget s.params s.regs.opa.toNat) 6 (msAMaxFor aux) ≤ 1800 :=
      (clamp_mem (msAMaxFor_mem aux).1).2.trans (msAMaxFor_mem aux).2
    rw [fpdFraction_snd] at hc
    refine ⟨ha.trans_lt (by decide), hb.trans_lt (by decide), hc.trans_lt (by decide), ?_⟩
    rw [exec_planMs_of_fixedTarget_pos hpll hpos, afterPlanMs, fixedPlan, writeTriple_overrideBy4, overrideBy4_b_eq_zero,
      BitVec.ofNat_toNat, BitVec.setWidth_eq]
    rfl

/-- Settles O42: the re-derived target is 0 exactly below 6, and divide-by-4 is looked at only after that. -/
theorem planMsZeroDivisorIffPllBelowSix : Obligations.PlanMsZeroDivisorIffPllBelowSix := by
  intro s t aux hwf hopb hexec
  have hpll : s.regs.opb.toNat ≠ 0 := fun hzero => hopb (BitVec.eq_of_toNat_eq hzero)
  have hiff := fixedTarget_eq_zero_iff (pll := s.regs.opb.toNat) (msTarget_pos hwf s.regs.opa.toNat) (msAMaxFor_mem aux).1
  by_cases hlow : s.regs.opb.toNat < 6
  · obtain rfl := next_unique hexec (exec_planMs_of_fixedTarget_zero hpll (hiff.mpr hlow))
    simp [hlow, errBits]
  · obtain rfl := next_unique hexec (exec_planMs_of_fixedTarget_pos hpll (mt hiff.mp hlow))
    simp [afterPlanMs, hlow, not_lt.mp hlow]

/-- Settles O43: the PLL frequency is the largest fitting multiple of the target, less at most what the forced dividers lose. -/
theorem planMsReturnsAPllFrequencyInTheVcoRange : Obligations.PlanMsReturnsAPllFrequencyInTheVcoRange := by
  intro s t aux hwf hopb hexec
  obtain rfl := next_unique hexec (exec_planMs_free (congrArg BitVec.toNat hopb) aux)
  have hfreq := toNat_ofNat_of_lt (freeDivider_mul_lt hwf (msTarget s.params s.regs.opa.toNat))
  exact hfreq.symm ▸ ⟨lt_freeDivider_mul hwf _, freeDivider_mul_le _ _⟩

/-- Settles O44: the override follows DIVBY4, and DIVBY4 the target. -/
theorem divideByFourOverridesTheTriple : Obligations.DivideByFourOverridesTheTriple := by
  intro s t aux _ hexec herr
  obtain ⟨plan, hplan, rfl⟩ := exec_planMs_completed hexec herr
  obtain ⟨hd4, tr, htriple, -⟩ := planMs_some hplan
  refine ⟨fun hopa => ?_, fun hopa => ?_⟩
  · rw [decide_eq_true hopa] at hd4
    rw [hd4] at htriple
    simp [afterPlanMs, hd4, htriple, overrideBy4]
  · rw [decide_eq_false (not_le.mpr hopa)] at hd4
    simp [afterPlanMs, hd4]

/-- A PLL frequency that is a multiple of the target, by a divider in range, is planned with that divider exactly (R116). -/
theorem fixedPlan_of_multiple {p : Params} {t a : Nat} {aux : Bool} (ht : 0 < t) (hlo : 500000 * p.freqMult ≤ t)
    (hhi : t < 150000000 * p.freqMult) (halo : 6 ≤ a) (hahi : a ≤ msAMaxFor aux) :
    fixedTarget (a * t) (msTarget p t) (msAMaxFor aux) = t ∧
    fixedPlan p t (a * t) aux =
      { triple := { a := a, b := 0, c := 1 }, pll := a * t, clamped := false, divBy4 := false } := by
  have hquot : a * t / t = a := Nat.mul_div_cancel a ht
  have htarget := msTarget_of_mem hlo hhi
  have hfixed : fixedTarget (a * t) t (msAMaxFor aux) = t := by
    rw [fixedTarget, hquot, if_neg (not_lt.mpr halo), if_neg (not_lt.mpr hahi)]
  rw [htarget]
  refine ⟨hfixed, ?_⟩
  simp only [fixedPlan, htarget, hfixed, hquot, clamp_of_mem halo hahi, Nat.mul_mod_left]
  simp [overrideBy4, halo, hahi, hhi]

/-- Settles O45: neither the target nor the divider is clamped, and the remainder is 0. -/
theorem planMsRecoversExactMultiples : Obligations.PlanMsRecoversExactMultiples := by
  intro s aux a hwf hlo hhi halo hahi hopb
  have hm := (freqMult_mem_of_wf hwf).1
  have ht : 0 < s.regs.opa.toNat := by omega
  have hpll : s.regs.opb.toNat ≠ 0 := hopb ▸ (Nat.mul_pos (by omega) ht).ne'
  obtain ⟨htarget, hplan⟩ := fixedPlan_of_multiple ht hlo hhi halo hahi
  rw [← hopb] at htarget hplan
  refine ⟨hopb ▸ Nat.mul_div_cancel_left _ (by omega), ?_⟩
  rw [exec_planMs_of_fixedTarget_pos hpll (htarget.trans_ne ht.ne'), hplan]
  simp [afterPlanMs, complete, setResFreq, setStatus, writeTriple, setTriple]

/-- Below DIVBY4_MIN and from OUT_MIN on the free plan is a multiple of the target itself (R117). -/
theorem freePlan_of_mem {p : Params} {t : Nat} (hlo : 500000 * p.freqMult ≤ t) (hhi : t < 150000000 * p.freqMult) :
    freePlan p t = { triple := { a := freeDivider p t, b := 0, c := 1 }, pll := freeDivider p t * t, clamped := false,
                     divBy4 := false } := by
  simp [freePlan, msTarget_of_mem hlo hhi, overrideBy4, hhi]

/-- Settles O46: the PLL frequency is the divider times the target, and neither is truncated or clamped. -/
theorem planMsReconstructsTheTarget : Obligations.PlanMsReconstructsTheTarget := by
  intro s aux hwf hopb hlo hhi
  have hexec := exec_planMs_free (congrArg BitVec.toNat hopb) aux
  have hfreq := toNat_ofNat_of_lt (freeDivider_mul_lt hwf s.regs.opa.toNat)
  have hgt := lt_freeDivider_mul hwf s.regs.opa.toNat
  have hle := freeDivider_le s.params s.regs.opa.toNat
  rw [freePlan_of_mem hlo hhi] at hexec
  rw [msTarget_of_mem hlo hhi] at hgt hle
  have hdivider := toNat_ofNat_of_lt (w := 64) (hle.trans_lt (by decide))
  have hpos : freeDivider s.params s.regs.opa.toNat ≠ 0 := fun hzero => by simp [hzero] at hgt
  exact ⟨_, hexec, hdivider.symm ▸ hfreq, hdivider.symm ▸ hpos, rfl, rfl⟩

theorem div_div_self_of_sq_le {n a : Nat} (ha : 0 < a) (h : a ^ 2 ≤ n) : n / (n / a) = a := by
  have hquot : a ≤ n / a := by rwa [Nat.le_div_iff_mul_le ha, ← Nat.pow_two]
  have hrem : n % a < a := Nat.mod_lt n ha
  rw [Nat.div_eq_iff (ha.trans_le hquot)]
  have hsplit : a * (n / a) + n % a = n := Nat.div_add_mod n a
  omega

/-- Where the divider is clamped to a bound `a` with `a * a ≤ pll`, the triple is the divider's answer to `pll / (pll / a)`. -/
theorem fixedTriple_of_clamped {pll f : Nat} {aux : Bool} {a : Nat} (ha : 0 < a) (hsq : a ^ 2 ≤ pll)
    (hclamp : clamp (pll / f) 6 (msAMaxFor aux) = a) (htarget : fixedTarget pll f (msAMaxFor aux) = pll / a) :
    fixedTriple pll f aux = some (fpd pll (pll / a) 1000000) := by
  have hpos : pll / a ≠ 0 := (Nat.div_pos ((Nat.le_self_pow (by decide) a).trans hsq) ha).ne'
  rw [fixedTriple_eq, htarget, if_neg hpos, hclamp, fpd, div_div_self_of_sq_le ha hsq]

theorem fpd_consistent {pll a : Nat} (ha : 0 < a) (hsq : a ^ 2 ≤ pll) :
    let tr := fpd pll (pll / a) 1000000
    tr.a = a ∧ pll / (pll / a) = a ∧ (tr.a * tr.c + tr.b) * (pll / a) ≤ pll * tr.c ∧
      pll * 1000000 < (tr.a * 1000000 + tr.b + 1) * (pll / a) :=
  have hpos : 0 < pll / a := Nat.div_pos ((Nat.le_self_pow (by decide) a).trans hsq) ha
  ⟨div_div_self_of_sq_le ha hsq, div_div_self_of_sq_le ha hsq, fpd_mul_le _ _ _, lt_fpd_succ_mul hpos _ _⟩

/-- Settles O47: from `a * a` on, `pll / (pll / a)` is `a` again, so the triple is the divider's answer with its bounds. -/
theorem clampedFixedTripleIsConsistent : Obligations.ClampedFixedTripleIsConsistent := by
  intro pll f aux tr _ htr amax a hcases
  have hamax := msAMaxFor_mem aux
  rcases hcases with ⟨hlow, hsq⟩ | ⟨hhigh, hsq⟩
  · have ha : a = 6 := if_pos hlow
    have htriple := fixedTriple_of_clamped (aux := aux) (by decide) hsq (if_pos hlow) (if_pos hlow)
    obtain rfl := Option.some.inj (htr.symm.trans htriple)
    rw [ha]
    exact fpd_consistent (by decide) hsq
  · have hnlow : ¬ pll / f < 6 := not_lt.mpr (hamax.1.trans hhigh.le)
    have ha : a = amax := if_neg hnlow
    have hpos : 0 < amax := Nat.lt_of_lt_of_le (by decide) hamax.1
    have htriple := fixedTriple_of_clamped (aux := aux) hpos hsq ((if_neg hnlow).trans (if_pos hhigh))
      ((if_neg hnlow).trans (if_pos hhigh))
    obtain rfl := Option.some.inj (htr.symm.trans htriple)
    rw [ha]
    exact fpd_consistent hpos hsq

/-- Settles O48: with OPB = 0 the plan does not mention AUX. -/
theorem auxHasNoEffectWithThePllNotFixed : Obligations.AuxHasNoEffectWithThePllNotFixed := fun _ h =>
  (exec_planMs_free (congrArg BitVec.toNat h) true).trans (exec_planMs_free (congrArg BitVec.toNat h) false).symm

/-- Settles O51: PLAN_PLL clamps the integer part to 36 at most and PLAN_MS the divider to 1800. -/
theorem plannedTriplesFitTheEncoderRegisters : Obligations.PlannedTriplesFitTheEncoderRegisters := by
  intro i s t hi _ hexec herr
  obtain ⟨tr, ha, hres⟩ : ∃ tr : Triple, tr.a ≤ 1800 ∧ t.regs.resA = BitVec.ofNat 64 tr.a := by
    rcases hi with rfl | ⟨aux, rfl⟩
    · obtain ⟨-, rfl, -⟩ := exec_planPll_completed hexec herr
      have hclamp : (planPll s.regs.refEff.toNat s.regs.opa.toNat).triple.a ≤ 36 := (clamp_mem (by decide)).2
      exact ⟨_, hclamp.trans (by decide), rfl⟩
    · obtain ⟨plan, hplan, rfl⟩ := exec_planMs_completed hexec herr
      obtain ⟨-, tr, htriple, ha⟩ := planMs_some hplan
      exact ⟨plan.triple, htriple ▸ (overrideBy4_a_le _ tr).trans ha, rfl⟩
  rw [hres, toNat_ofNat_of_lt (ha.trans_lt (by decide))]
  exact ha.trans_lt (by decide)

/-! ### SELECT_RDIV (R120 to R123) -/

/-- `f` lies in window number `k` (R121). -/
abbrev inWindow (rmin f k : Nat) : Prop := rmin * 2 ^ k ≤ f ∧ f < rmin * 2 ^ (k + 1)

/-- The windows do not overlap. -/
theorem inWindow_unique {rmin j k f : Nat} (hj : inWindow rmin f j) (hk : inWindow rmin f k) : j = k := by
  have hle : ∀ {m n : Nat}, inWindow rmin f m → inWindow rmin f n → m ≤ n := fun {m n} hm hn => by
    by_contra hlt
    have hpow : rmin * 2 ^ (n + 1) ≤ rmin * 2 ^ m :=
      Nat.mul_le_mul_left rmin (Nat.pow_le_pow_right (by decide) (not_le.mp hlt))
    exact absurd (hm.1.trans_lt hn.2) (not_lt.mpr hpow)
  exact le_antisymm (hle hj hk) (hle hk hj)

/-- A fold that keeps the last index meeting `p` gives the index `k` where only `k` meets it. -/
theorem foldl_ite_of_unique {α : Type} {p : Nat → Prop} [DecidablePred p] {g : Nat → α} {k : Nat} (hk : p k)
    (huniq : ∀ j, p j → j = k) (l : List Nat) (x : α) :
    l.foldl (fun acc j => if p j then g j else acc) x = if k ∈ l then g k else x := by
  induction l generalizing x with
  | nil => rfl
  | cons j l ih =>
    rw [List.foldl_cons, ih]
    by_cases hj : p j
    · obtain rfl := huniq j hj
      simp [hj]
    · have hne : k ≠ j := fun h => hj (h ▸ hk)
      simp [hj, hne]

theorem foldl_ite_of_none {α : Type} {p : Nat → Prop} [DecidablePred p] {g : Nat → α} {l : List Nat}
    (hnone : ∀ j ∈ l, ¬ p j) (x : α) : l.foldl (fun acc j => if p j then g j else acc) x = x := by
  induction l with
  | nil => rfl
  | cons j l ih =>
    rw [List.foldl_cons, if_neg (hnone j List.mem_cons_self)]
    exact ih fun i hi => hnone i (List.mem_cons_of_mem j hi)

theorem rdivFor_of_inWindow {rmin k f : Nat} (hk : k ≤ 6) (h : inWindow rmin f k) :
    rdivFor rmin f = (7 - k, f * 2 ^ (7 - k)) :=
  (foldl_ite_of_unique (p := inWindow rmin f) h (fun _ hj => inWindow_unique hj h) (List.range 7) (0, f)).trans
    (if_pos (List.mem_range.mpr (Nat.lt_succ_of_le hk)))

/-- Below the first window and past the last one there is none. -/
theorem rdivFor_of_outside {rmin f : Nat} (h : f < rmin ∨ rmin * 128 ≤ f) : rdivFor rmin f = (0, f) := by
  refine foldl_ite_of_none (fun k hk => ?_) _
  rintro ⟨hlo, hhi⟩
  rcases h with hbelow | habove
  · exact absurd (hbelow.trans_le (Nat.le_mul_of_pos_right rmin (Nat.two_pow_pos k))) (not_lt.mpr hlo)
  · have hpow : rmin * 2 ^ (k + 1) ≤ rmin * 2 ^ 7 :=
      Nat.mul_le_mul_left rmin (Nat.pow_le_pow_right (by decide) (List.mem_range.mp hk))
    exact absurd (hhi.trans_le hpow) (not_lt.mpr habove)

/-- The seven windows cover `[rmin, 128 rmin)`. -/
theorem exists_inWindow {rmin f : Nat} (hlo : rmin ≤ f) (hhi : f < rmin * 128) : ∃ k, k ≤ 6 ∧ inWindow rmin f k := by
  have hex : ∃ n, f < rmin * 2 ^ (n + 1) := ⟨6, hhi⟩
  refine ⟨Nat.find hex, Nat.find_le hhi, ?_, Nat.find_spec hex⟩
  cases hk : Nat.find hex with
  | zero => simpa using hlo
  | succ n => exact not_lt.mp (Nat.find_min hex (hk ▸ Nat.lt_succ_self n))

/-- The scaled frequency of any window lies in the octave from `128 rmin` (R123). -/
theorem scaled_mem_of_inWindow {rmin k f : Nat} (hk : k ≤ 6) (h : inWindow rmin f k) :
    rmin * 128 ≤ f * 2 ^ (7 - k) ∧ f * 2 ^ (7 - k) < rmin * 256 := by
  have hsum : ∀ i, rmin * 2 ^ (k + i) * 2 ^ (7 - k) = rmin * 2 ^ (7 + i) := fun i => by
    rw [Nat.mul_assoc, ← Nat.pow_add]
    congr 2
    omega
  have hlo := Nat.mul_le_mul_right (2 ^ (7 - k)) h.1
  have hhi := Nat.mul_lt_mul_of_pos_right h.2 (Nat.two_pow_pos (7 - k))
  exact ⟨(hsum 0).symm.trans_le hlo, hhi.trans_eq (hsum 1)⟩

/-- SELECT_RDIV for a code and frequency (R122). -/
theorem exec_selectRdiv_of_rdivFor {s : State} {code freq : Nat}
    (h : rdivFor (4000 * s.params.freqMult) s.regs.opa.toNat = (code, freq)) :
    exec .selectRdiv s =
      .next (complete {} (setResFreq (setResRdiv s (BitVec.ofNat 3 code)) (BitVec.ofNat 64 freq))) := by
  have h' : rdivFor (rdivMin s.params) s.regs.opa.toNat = (code, freq) := h
  simp only [exec, execSelectRdiv, h']

theorem scaled_lt_of_inWindow {p : Params} (hwf : p.wf = true) {k f : Nat} (hk : k ≤ 6)
    (h : inWindow (4000 * p.freqMult) f k) : f * 2 ^ (7 - k) < 2 ^ 64 := by
  have hm := (freqMult_mem_of_wf hwf).2
  have hmem := (scaled_mem_of_inWindow hk h).2
  omega

/-- Settles O49: a frequency is in at most one window, and outside `[RDIV_MIN, 128 RDIV_MIN)` in none. -/
theorem selectRdivChoosesTheWindow : Obligations.SelectRdivChoosesTheWindow := by
  refine ⟨fun w => decodeReadsExactlyTheReadFields w .selectRdiv, fun s hwf => ⟨fun k hk hlo hhi => ?_, fun hout => ?_⟩⟩
  · exact ⟨scaled_lt_of_inWindow hwf hk ⟨hlo, hhi⟩, exec_selectRdiv_of_rdivFor (rdivFor_of_inWindow hk ⟨hlo, hhi⟩)⟩
  · rw [exec_selectRdiv_of_rdivFor (rdivFor_of_outside hout), BitVec.ofNat_toNat, BitVec.setWidth_eq]
    rfl

/-- Settles O50: the frequency is in some window, and the scaling by `2^(7-k)` moves each onto the octave from `128 RDIV_MIN`. -/
theorem scaledFrequencyLandsInTheOutputRange : Obligations.ScaledFrequencyLandsInTheOutputRange := by
  intro s t hwf hexec hlo hhi
  obtain ⟨k, hk, hwindow⟩ := exists_inWindow hlo hhi
  obtain rfl := next_unique hexec (exec_selectRdiv_of_rdivFor (rdivFor_of_inWindow hk hwindow))
  obtain ⟨hmin, hmax⟩ := scaled_mem_of_inWindow hk hwindow
  rw [complete_regs, setResFreq_regs, toNat_ofNat_of_lt (scaled_lt_of_inWindow hwf hk hwindow)]
  omega

end Sys2Proof.Machine

/-! PROOFS of the family 41_encoder: the bytes of a parameter block as numbers, the commands that write one payload, the merge
of a control field, and where a failed transaction ends a command. -/

namespace Sys2Proof

/-! ### Words with a BASE field (30_encoding.md R71, R73) -/

theorem toNat_extractLsb'_eq_div_mod {n : Nat} (start len : Nat) (x : BitVec n) :
    (x.extractLsb' start len).toNat = x.toNat / 2 ^ start % 2 ^ len := by
  rw [BitVec.extractLsb'_toNat, Nat.shiftRight_eq_div_pow]

theorem toNat_baseField (w : CmdWord) : (baseField w).toNat = w.toNat / 256 % 256 :=
  toNat_extractLsb'_eq_div_mod 8 8 w

/-- The fields of an operation that reads BASE, as the opcode table's mask and a number. -/
theorem opcode_and_base_iff (w : CmdWord) (op : BitVec 4) (base : Byte) :
    reservedBitsClear w = true ∧ opField w = op ∧ baseField w = base ↔
      w &&& 0xFFFF000F = commandWord op false 0 0 ∧ w.toNat / 256 % 256 = base.toNat := by
  rw [and_opMask_iff, ← BitVec.toNat_inj (x := baseField w), toNat_baseField, and_assoc]

theorem decode_encodeTriple_iff (w : CmdWord) (base : Byte) :
    decode w = .ok (.encodeTriple base) ↔ w &&& 0xFFFF000F = 0x00000006 ∧ w.toNat / 256 % 256 = base.toNat :=
  (decode_eq_ok_iff w _).trans (opcode_and_base_iff w 0x6 base)

theorem decode_encodeAux_iff (w : CmdWord) (base : Byte) :
    decode w = .ok (.encodeAux base) ↔ w &&& 0xFFFF000F = 0x00000007 ∧ w.toNat / 256 % 256 = base.toNat :=
  (decode_eq_ok_iff w _).trans (opcode_and_base_iff w 0x7 base)

end Sys2Proof

namespace Sys2Proof.Machine

/-! ### The parameter block as numbers (41_encoder.md R141, R142, R143) -/

theorem toNat_setWidth_lt {k : Nat} (n : Nat) (x : BitVec k) : (x.setWidth n).toNat < 2 ^ k := by
  rw [BitVec.toNat_setWidth]
  exact (Nat.mod_le _ _).trans_lt x.isLt

/-- A field of `k` bits moved up by `m` in a word of `n` bits, over a field of at most `m` bits. -/
theorem toNat_field_over {k m n : Nat} (h : k + m ≤ n) (hi : BitVec k) {lo : BitVec n} (hlo : lo.toNat < 2 ^ m) :
    (hi.setWidth n <<< m ||| lo).toNat = hi.toNat * 2 ^ m + lo.toNat := by
  have hhi : hi.toNat * 2 ^ m < 2 ^ n :=
    calc hi.toNat * 2 ^ m < 2 ^ k * 2 ^ m := Nat.mul_lt_mul_of_pos_right hi.isLt (Nat.two_pow_pos m)
      _ = 2 ^ (k + m) := (Nat.pow_add 2 k m).symm
      _ ≤ 2 ^ n := Nat.pow_le_pow_right (by decide) h
  rw [BitVec.toNat_or, BitVec.toNat_shiftLeft, BitVec.toNat_setWidth_of_le (by omega), Nat.shiftLeft_eq,
    Nat.mod_eq_of_lt hhi, ← Nat.shiftLeft_eq, Nat.shiftLeft_add_eq_or_of_lt hlo]

theorem toNat_nibbles (hi lo : BitVec 4) :
    (hi.setWidth 8 <<< 4 ||| lo.setWidth 8).toNat = hi.toNat * 2 ^ 4 + lo.toNat := by
  rw [toNat_field_over (by decide) hi (toNat_setWidth_lt 8 lo), BitVec.toNat_setWidth_of_le (by decide)]

/-- Three fields side by side, as `decode9` assembles a parameter. -/
theorem toNat_threeFields {k n : Nat} (hkn : k + 16 ≤ n) (hi : BitVec k) (mid lo : Byte) :
    (hi.setWidth n <<< 16 ||| mid.setWidth n <<< 8 ||| lo.setWidth n).toNat =
      hi.toNat * 2 ^ 16 + mid.toNat * 2 ^ 8 + lo.toNat := by
  have hmid := mid.isLt
  have hlo := lo.isLt
  have hlow : (mid.setWidth n <<< 8 ||| lo.setWidth n).toNat = mid.toNat * 2 ^ 8 + lo.toNat := by
    rw [toNat_field_over (by omega) mid (toNat_setWidth_lt n lo), BitVec.toNat_setWidth_of_le (by omega)]
  rw [BitVec.or_assoc, toNat_field_over hkn hi (by omega), hlow, Nat.add_assoc]

/-- A list is the parameter block iff its bytes, as numbers, are those of R141. -/
theorem parameterBlock_eq_iff (p1 : BitVec 18) (p2 p3 : BitVec 20) (y1 y2 y3 y4 y5 y6 y7 y8 : Byte) :
    parameterBlock p1 p2 p3 = [y1, y2, y3, y4, y5, y6, y7, y8] ↔
      p3.toNat / 256 % 256 = y1.toNat ∧ p3.toNat % 256 = y2.toNat ∧ p1.toNat / 65536 = y3.toNat ∧
      p1.toNat / 256 % 256 = y4.toNat ∧ p1.toNat % 256 = y5.toNat ∧
      p3.toNat / 65536 * 16 + p2.toNat / 65536 = y6.toNat ∧ p2.toNat / 256 % 256 = y7.toNat ∧
      p2.toNat % 256 = y8.toNat := by
  have h1 : p1.toNat / 65536 % 4 = p1.toNat / 65536 := Nat.mod_eq_of_lt (by omega)
  have h2 : p2.toNat / 65536 % 16 = p2.toNat / 65536 := Nat.mod_eq_of_lt (by omega)
  have h3 : p3.toNat / 65536 % 16 = p3.toNat / 65536 := Nat.mod_eq_of_lt (by omega)
  have hbyte3 : ((p1.extractLsb' 16 2).setWidth 8).toNat = p1.toNat / 65536 := by
    rw [BitVec.toNat_setWidth_of_le (by decide), toNat_extractLsb'_eq_div_mod]
    exact h1
  simp only [parameterBlock, List.cons.injEq, and_true, ← BitVec.toNat_inj, toNat_nibbles, hbyte3,
    toNat_extractLsb'_eq_div_mod, Nat.reducePow, Nat.div_one, h2, h3]

/-- The payload bytes of a parameter block by arithmetic (R141). -/
def blockBytes (p1 p2 p3 : Nat) : List Nat :=
  [p3 / 256 % 256, p3 % 256, p1 / 65536, p1 / 256 % 256, p1 % 256, p3 / 65536 * 16 + p2 / 65536, p2 / 256 % 256, p2 % 256]

theorem parameterBlock_eq_blockBytes (p1 : BitVec 18) (p2 p3 : BitVec 20) :
    parameterBlock p1 p2 p3 = (blockBytes p1.toNat p2.toNat p3.toNat).map (BitVec.ofNat 8) := by
  refine (parameterBlock_eq_iff p1 p2 p3 _ _ _ _ _ _ _ _).mpr ?_
  simp only [BitVec.toNat_ofNat]
  omega

/-- `decode9` assembles each parameter from its fields (R143). -/
theorem decode9_eq_some (y0 y1 y2 y3 y4 y5 y6 y7 y8 : Byte) :
    ∃ x, decode9 [y0, y1, y2, y3, y4, y5, y6, y7, y8] = some x ∧ x.base = y0 ∧
      x.p1.toNat = y3.toNat % 4 * 65536 + y4.toNat * 256 + y5.toNat ∧
      x.p2.toNat = y6.toNat % 16 * 65536 + y7.toNat * 256 + y8.toNat ∧
      x.p3.toNat = y6.toNat / 16 * 65536 + y1.toNat * 256 + y2.toNat := by
  have hhigh : y6.toNat / 16 % 16 = y6.toNat / 16 := Nat.mod_eq_of_lt (by omega)
  refine ⟨_, rfl, rfl, ?_, ?_, ?_⟩
  all_goals
    rw [toNat_threeFields (by decide), toNat_extractLsb'_eq_div_mod]
    simp only [Nat.reducePow, Nat.div_one, hhigh]

/-- Encoding and then decoding: every bit of a parameter stands in one of the bytes it is assembled from. -/
theorem decode9_encode9 (base : Byte) (p1 : BitVec 18) (p2 p3 : BitVec 20) :
    decode9 (encode9 base p1 p2 p3) = some { base := base, p1 := p1, p2 := p2, p3 := p3 } := by
  obtain ⟨y1, y2, y3, y4, y5, y6, y7, y8, hblock⟩ :
      ∃ y1 y2 y3 y4 y5 y6 y7 y8, parameterBlock p1 p2 p3 = [y1, y2, y3, y4, y5, y6, y7, y8] :=
    ⟨_, _, _, _, _, _, _, _, rfl⟩
  have hbytes := (parameterBlock_eq_iff p1 p2 p3 _ _ _ _ _ _ _ _).mp hblock
  obtain ⟨x, hx, rfl, h1, h2, h3⟩ := decode9_eq_some base y1 y2 y3 y4 y5 y6 y7 y8
  have hp1 : x.p1 = p1 := BitVec.eq_of_toNat_eq (by omega)
  have hp2 : x.p2 = p2 := BitVec.eq_of_toNat_eq (by omega)
  have hp3 : x.p3 = p3 := BitVec.eq_of_toNat_eq (by omega)
  rw [encode9, hblock, hx, ← hp1, ← hp2, ← hp3]

/-- Settles O53: `decode9` reads the numbers the block holds, and of the nine bytes it ignores `y3[7:2]` alone. -/
theorem parameterBlockRoundTrip : Obligations.ParameterBlockRoundTrip := by
  refine ⟨decode9_encode9, fun y0 y1 y2 y3 y4 y5 y6 y7 y8 => ?_⟩
  obtain ⟨x, hx, hbase, h1, h2, h3⟩ := decode9_eq_some y0 y1 y2 y3 y4 y5 y6 y7 y8
  refine ⟨x, hx, hbase, h1, h2, h3, ?_⟩
  have hp1 := x.p1.isLt
  simp only [encode9, List.cons.injEq, parameterBlock_eq_iff, hbase, true_and]
  omega

/-! ### Transactions the port fails (20_memory.md R53, R54) -/

theorem memRead_of_fail {s : State} {reads : List ReadAnswer} (h : s.port.reads = .fail :: reads) (addr : Byte) :
    memRead addr s =
      .failed addr (record (setPort s { s.port with reads := reads }) (.portRead addr (some .fail))) := by
  simp [memRead, h]

theorem memWrite_of_fail {s : State} {writes : List WriteAnswer} (h : s.port.writes = .fail :: writes) (addr : Byte)
    (payload : List Byte) :
    memWrite addr payload s =
      .failed addr (record (setPort s { s.port with writes := writes }) (.portWrite addr payload (some .fail))) := by
  simp [memWrite, h]

/-! ### Commands with one write transaction (R141, R145) -/

theorem endPortCommand_memWrite_of_ok {s : State} {writes : List WriteAnswer} (h : s.port.writes = .ok :: writes)
    (addr : Byte) (payload : List Byte) :
    endPortCommand (memWrite addr payload s) = .next { s with
      regs := { s.regs with status := okStatus {} }
      port := { s.port with writes := writes }
      events := s.events ++ [.portWrite addr payload (some .ok)] } :=
  congrArg endPortCommand (memWrite_of_ok h addr payload)

theorem endPortCommand_memWrite_of_fail {s : State} {writes : List WriteAnswer} (h : s.port.writes = .fail :: writes)
    (addr : Byte) (payload : List Byte) :
    endPortCommand (memWrite addr payload s) = .next { s with
      regs := { s.regs with status := errStatus .portError addr }
      port := { s.port with writes := writes }
      events := s.events ++ [.portWrite addr payload (some .fail)] } :=
  congrArg endPortCommand (memWrite_of_fail h addr payload)

/-- ENCODE_TRIPLE with its payload as numbers. -/
theorem exec_encodeTriple (base : Byte) (s : State) :
    exec (.encodeTriple base) s = endPortCommand (memWrite base
      ((blockBytes s.regs.p1.toNat s.regs.p2.toNat s.regs.p3.toNat).map (BitVec.ofNat 8)) s) := by
  rw [← parameterBlock_eq_blockBytes]
  rfl

/-- Settles O52: the command is the end of one write of the parameter block. -/
theorem encodeTripleWritesTheParameterBlock : Obligations.EncodeTripleWritesTheParameterBlock :=
  ⟨decode_encodeTriple_iff, fun s base =>
    ⟨fun _ h => (exec_encodeTriple base s).trans (endPortCommand_memWrite_of_ok h base _),
      fun _ h => (exec_encodeTriple base s).trans (endPortCommand_memWrite_of_fail h base _)⟩⟩

/-- ENCODE_AUX for a P1 that does not fit the byte. -/
theorem exec_encodeAux_of_gt {s : State} (base : Byte) (h : 255 < s.regs.p1.toNat) :
    exec (.encodeAux base) s = .next (raise .operandRange 0 s) := if_pos h

/-- ENCODE_AUX for a P1 that fits the byte. -/
theorem exec_encodeAux_of_le {s : State} (base : Byte) (h : s.regs.p1.toNat ≤ 255) :
    exec (.encodeAux base) s = endPortCommand (memWrite base [BitVec.ofNat 8 s.regs.p1.toNat] s) :=
  if_neg (Nat.not_lt.mpr h)

/-- Settles O55: P1 is tested before the transaction, and its low byte is the payload. -/
theorem encodeAuxWritesOneByte : Obligations.EncodeAuxWritesOneByte := by
  refine ⟨decode_encodeAux_iff, fun s base => ⟨exec_encodeAux_of_gt base, fun rest hle hok => ?_, fun rest hle hfail => ?_⟩⟩
  · rw [exec_encodeAux_of_le base hle, endPortCommand_memWrite_of_ok hok]
  · rw [exec_encodeAux_of_le base hle, endPortCommand_memWrite_of_fail hfail]

/-! ### The merge of a control field (R151) -/

/-- The mask has exactly those bits of the field that lie in the byte. -/
theorem getLsbD_fieldMask {i : Nat} (hi : i < 8) (w sh : Nat) :
    (fieldMask w sh).getLsbD i = decide (sh ≤ i ∧ i < sh + w) := by
  rw [fieldMask, BitVec.getLsbD_ofNat, Nat.testBit_shiftLeft, Nat.testBit_two_pow_sub_one, Bool.eq_iff_iff]
  simp only [Bool.and_eq_true, decide_eq_true_eq]
  omega

theorem getLsbD_mergeField {i : Nat} (hi : i < 8) (old v : Byte) (w sh : Nat) :
    (mergeField old w sh v).getLsbD i = if sh ≤ i ∧ i < sh + w then v.getLsbD (i - sh) else old.getLsbD i := by
  simp only [mergeField, BitVec.getLsbD_or, BitVec.getLsbD_and, BitVec.getLsbD_not, BitVec.getLsbD_shiftLeft,
    getLsbD_fieldMask hi]
  by_cases h : sh ≤ i ∧ i < sh + w
  · simp [h, hi, Nat.not_lt.mpr h.1]
  · simp [h, hi]

/-- Settles O56: the mask selects, bit by bit, between the value and the old byte. -/
theorem mergeChangesExactlyTheField : Obligations.MergeChangesExactlyTheField :=
  ⟨fun old v w sh _ _ hi => getLsbD_mergeField hi old v w sh,
    fun c => ⟨toNat_setWidth_lt 8 (c.extractLsb' 0 1), toNat_setWidth_lt 8 (c.extractLsb' 2 3),
      toNat_setWidth_lt 8 (c.extractLsb' 1 1)⟩⟩

/-! ### PORT_ERROR (R153, R181, R184) -/

theorem errBits_eq_portError_iff {e : ErrCode} : errBits e = 6 ↔ e = .portError := by cases e <;> decide

/-- The new events of a command: all succeeded and the code is not PORT_ERROR, or the last failed at the address reported. -/
theorem exec_events_cases {i : Instr} {s t : State} (h : exec i s = .next t) :
    (statusErr t.regs.status ≠ 6 ∧ ∃ l, t.events = s.events ++ l ∧ ∀ x ∈ l, succeeded x) ∨
    (statusErr t.regs.status = 6 ∧ ∃ l e, t.events = s.events ++ l ++ [e] ∧ (∀ x ∈ l, succeeded x) ∧
      failedAt e (statusErrAddr t.regs.status)) := by
  rcases exec_cases i s with ⟨e, he, -, hx⟩ | ⟨-, f, u, hx, -, -, -, hevents⟩ | ⟨-, r, hr, hend⟩
  · obtain rfl := next_unique h hx
    exact .inl ⟨by simpa using mt errBits_eq_portError_iff.mp he, [], by simp, by simp⟩
  · obtain rfl := next_unique h hx
    exact .inl ⟨by simp, [], by simp [hevents], by simp⟩
  · rcases endPortCommand_cases hr with ⟨u, l, hu, ⟨-, -, -, hevents, -⟩, hok⟩ |
      ⟨a, u, l, e, hu, ⟨-, -, -, hevents, -⟩, hok, hfail⟩ | ⟨u, l, e, hu, -⟩
    · obtain rfl := next_unique h (hend.trans hu)
      exact .inl ⟨by simp, l, hevents, hok⟩
    · obtain rfl := next_unique h (hend.trans hu)
      refine .inr ⟨by simp [errBits], l, e, by simpa using hevents, hok, ?_⟩
      rwa [raise_regs, errStatus, statusErrAddr_statusWord]
    · simp [hend.trans hu] at h

/-- Settles O28: the code tells the two cases apart. -/
theorem portErrorNamesTheFirstFailure : Obligations.PortErrorNamesTheFirstFailure := by
  intro i s t h
  rcases exec_events_cases h with ⟨hcode, hevents⟩ | ⟨hcode, hevents⟩
  · exact ⟨fun hport => absurd hport hcode, fun _ => hevents⟩
  · exact ⟨fun _ => hevents, fun hport => absurd hcode hport⟩

/-! ### ENCODE_CTRL up to a failed transaction (R150, R153) -/

theorem exec_encodeCtrl (ch : Channel) (s : State) :
    exec (.encodeCtrl ch) s = endPortCommand (updateFields (presentFields (channelLocs s.params ch) s.regs.ctrl) s) :=
  congrArg endPortCommand (updateControlFields_eq_updateFields _ _ s)

theorem updateFields_cons (f : FieldLoc × Nat × Byte) (fs : List (FieldLoc × Nat × Byte)) (s : State) :
    updateFields (f :: fs) s = andThen (updateField (some f.1) f.2.1 f.2.2 s) fun _ t => updateFields fs t := rfl

theorem andThen_assoc {α β γ : Type} (r : PortResult α) (k : α → State → PortResult β) (m : β → State → PortResult γ) :
    andThen (andThen r k) m = andThen r fun v t => andThen (k v t) m := by
  cases r with
  | done | failed | unanswered => rfl

theorem updateFields_append (fs gs : List (FieldLoc × Nat × Byte)) (s : State) :
    updateFields (fs ++ gs) s = andThen (updateFields fs s) fun _ t => updateFields gs t := by
  induction fs generalizing s with
  | nil => rfl
  | cons f fs ih => simp only [List.cons_append, updateFields_cons, andThen_assoc, ih]

/-- A failed read issues no write for its field. -/
theorem updateField_of_read_fail {s : State} {reads : List ReadAnswer} (hr : s.port.reads = .fail :: reads)
    (f : FieldLoc × Nat × Byte) :
    updateField (some f.1) f.2.1 f.2.2 s =
      .failed f.1.addr (afterTransactions s ⟨reads, s.port.writes⟩ [.portRead f.1.addr (some .fail)]) := by
  rw [updateField, memRead_of_fail hr]
  rfl

theorem updateField_of_write_fail {s : State} {d : Byte} {reads : List ReadAnswer} {writes : List WriteAnswer}
    (hr : s.port.reads = .ok d :: reads) (hw : s.port.writes = .fail :: writes) (f : FieldLoc × Nat × Byte) :
    updateField (some f.1) f.2.1 f.2.2 s = .failed f.1.addr (afterTransactions s ⟨reads, writes⟩
      [ .portRead f.1.addr (some (.ok d)),
        .portWrite f.1.addr [mergeField d f.2.1 f.1.shift f.2.2] (some .fail) ]) := by
  simp [updateField, memRead_of_ok hr, memWrite_of_fail, hw, afterTransactions, record, setPort]

theorem eq_take_append_cons_drop {α : Type} {l : List α} {n : Nat} {a : α} (h : l[n]? = some a) :
    l = l.take n ++ a :: l.drop (n + 1) := by
  obtain ⟨hn, rfl⟩ := List.getElem?_eq_some_iff.mp h
  rw [List.cons_getElem_drop_succ, List.take_append_drop]

theorem zipWith_take_length {α β γ : Type} (g : α → β → γ) (l : List α) (m : List β) :
    List.zipWith g (l.take m.length) m = List.zipWith g l m := by
  have htake := List.take_zipWith (f := g) (l := l) (l' := m) (i := m.length)
  rwa [List.take_of_length_le (by simp), List.take_length, eq_comm] at htake

/-- The fields before `f` are updated, and then `f`, whose transactions end in a failure, ends the command. -/
theorem exec_encodeCtrl_of_fail {s u : State} {ch : Channel} {ds : List Byte} {f : FieldLoc × Nat × Byte}
    {reads : List ReadAnswer} {writes : List WriteAnswer}
    {fs : List (FieldLoc × Nat × Byte)} (hfs : presentFields (channelLocs s.params ch) s.regs.ctrl = fs)
    (hf : fs[ds.length]? = some f) (hr : s.port.reads = ds.map ReadAnswer.ok ++ reads)
    (hw : s.port.writes = List.replicate ds.length WriteAnswer.ok ++ writes)
    (hfail : updateField (some f.1) f.2.1 f.2.2
      (afterTransactions s ⟨reads, writes⟩ (List.zipWith fieldEvents fs ds).flatten) = .failed f.1.addr u) :
    exec (.encodeCtrl ch) s = .next (raise .portError f.1.addr u) := by
  obtain ⟨hlt, -⟩ := List.getElem?_eq_some_iff.mp hf
  have hlen : ds.length = (fs.take ds.length).length := (List.length_take_of_le hlt.le).symm
  have hbefore := updateFields_of_ok hlen hr (hlen ▸ hw)
  rw [zipWith_take_length] at hbefore
  rw [exec_encodeCtrl, hfs, eq_take_append_cons_drop hf, updateFields_append, hbefore, andThen_done, updateFields_cons, hfail]
  rfl

/-- Settles O58: the field's read or its write fails after the updates of the fields before it. -/
theorem encodeCtrlEndsAtTheFirstFailure : Obligations.EncodeCtrlEndsAtTheFirstFailure := by
  intro s ch ds f reads writes fs hf before
  constructor
  · intro hr hw
    rw [exec_encodeCtrl_of_fail rfl hf hr hw (updateField_of_read_fail rfl f)]
    rfl
  · intro d hr hw
    rw [exec_encodeCtrl_of_fail rfl hf hr hw (updateField_of_write_fail rfl rfl f)]
    rfl

end Sys2Proof.Machine

/-! PROOFS of the family 42_system: NOP and the reserved command. -/

namespace Sys2Proof

/-! ### The words of NOP and of the reserved command (R75, R170, R172) -/

theorem decode_nop_iff (w : CmdWord) : decode w = .ok .nop ↔ w &&& 0xFFFF000F = 0x00000000 :=
  decodeReadsExactlyTheReadFields w .nop

/-- Both forms of the reserved command are rejected; reserved bits are reported first, whatever OP holds. -/
theorem exists_decode_error {w : CmdWord} (h : w.toNat / 65536 ≠ 0 ∨ 9 ≤ w.toNat % 16) : ∃ e, decode w = .error e := by
  obtain ⟨-, hreservedBits, hreservedOp⟩ := everyWordIsOneOperationOrIllegal w
  by_cases hclear : w.toNat / 65536 = 0
  · exact ⟨_, hreservedOp hclear (h.resolve_left (not_not_intro hclear))⟩
  · exact ⟨_, hreservedBits hclear⟩

end Sys2Proof

namespace Sys2Proof.Machine

/-! ### What the two commands write -/

theorem okStatus_noFlags : okStatus {} = 0x0000 := by decide

theorem errStatus_illegalCmd : errStatus .illegalCmd 0 = 0x0001 := by decide

theorem exec_nop (s : State) : exec .nop s = .next (setStatus s 0x0000) :=
  congrArg (Host.Outcome.next <| setStatus s ·) okStatus_noFlags

theorem execWord_of_illegal {w : CmdWord} (h : w.toNat / 65536 ≠ 0 ∨ 9 ≤ w.toNat % 16) (s : State) :
    execWord w s = .next (setStatus s 0x0001) := by
  obtain ⟨e, hdecode⟩ := exists_decode_error h
  rw [execWord_of_decode_error hdecode, raise, errStatus_illegalCmd]

/-- The reserved bits and OP of the word that CMD stores are those of the word written. -/
theorem illegal_setWidth_iff (v : HostWord) :
    ((v.setWidth 32).toNat / 65536 ≠ 0 ∨ 9 ≤ (v.setWidth 32).toNat % 16) ↔
      (v.toNat % 2 ^ 32 / 65536 ≠ 0 ∨ 9 ≤ v.toNat % 16) := by
  rw [BitVec.toNat_setWidth, Nat.mod_mod_of_dvd v.toNat (by decide : 16 ∣ 2 ^ 32)]

/-- Settles O13: the word stored in CMD is rejected by the decoder, so the write ends with ILLEGAL_CMD. -/
theorem reservedCommandReportsIllegal : Obligations.ReservedCommandReportsIllegal := by
  intro s v rest hhost hillegal
  calc step s = hostWrite 0x00 v (setHost s rest) := step_of_host_cons hhost
    _ = execWord (v.setWidth 32) (storeHostWrite 0x00 v (setHost s rest)) := hostWrite_cmd v _
    _ = .next (setStatus (storeHostWrite 0x00 v (setHost s rest)) 0x0001) :=
      execWord_of_illegal ((illegal_setWidth_iff v).mpr hillegal) _

/-- Settles O59: the mask of the opcode table is NOP's read mask, and NOP completes without flags. -/
theorem nopClearsStatusOnly : Obligations.NopClearsStatusOnly := ⟨decode_nop_iff, exec_nop⟩

end Sys2Proof.Machine

/-! PROOFS of the family 60_exceptions: the block stops only on a port transaction that is never answered, with STATUS not
written. -/

namespace Sys2Proof.Machine

/-! ### The stuck block (60_exceptions.md R189) -/

/-- In `t`, reached from `s`, the block waits for the answer to the last transaction issued, and STATUS is not written. -/
def StuckOnPort (s t : State) : Prop :=
  ∃ l e, t.events = s.events ++ l ++ [e] ∧ neverAnswered e = true ∧ t.regs.status = s.regs.status

/-- The ways R189 leaves to end what was begun in `s`: a next state, or the stuck block. -/
def EndsOrIsStuck (s : State) (o : Host.Outcome State Fault Refusal) : Prop :=
  (∃ t, o = .next t) ∨ ∃ t, o = .fault (.portNeverAnswers t) ∧ StuckOnPort s t

theorem EndsOrIsStuck.of_next {s t : State} {o : Host.Outcome State Fault Refusal} (h : o = .next t) :
    EndsOrIsStuck s o := .inl ⟨t, h⟩

/-- What is stuck after `u` is stuck after any earlier `s`, as long as STATUS was not written between the two. -/
theorem StuckOnPort.of_earlier {s u t : State} {m : List Event} (h : StuckOnPort u t)
    (hevents : u.events = s.events ++ m) (hstatus : u.regs.status = s.regs.status) : StuckOnPort s t := by
  obtain ⟨l, e, htevents, hnever, htstatus⟩ := h
  exact ⟨m ++ l, e, by simp [htevents, hevents], hnever, htstatus.trans hstatus⟩

theorem endPortCommand_endsOrIsStuck {s : State} {r : PortResult Unit} (hr : EndsWell s r) :
    EndsOrIsStuck s (endPortCommand r) := by
  rcases endPortCommand_cases hr with ⟨t, l, h, -⟩ | ⟨a, t, l, e, h, -⟩ | ⟨t, l, e, h, ⟨hregs, -, -, hevents, -⟩, -, hnever⟩
  · exact .of_next h
  · exact .of_next h
  · exact .inr ⟨t, h, l, e, by rw [hevents, List.append_assoc], hnever, by rw [hregs]⟩

/-- An error and a success without transactions are next states; an encoder command ends as its transactions do. -/
theorem exec_endsOrIsStuck (i : Instr) (s : State) : EndsOrIsStuck s (exec i s) := by
  rcases exec_cases i s with ⟨e, -, -, h⟩ | ⟨-, f, t, h, -⟩ | ⟨-, r, hr, h⟩
  · exact .of_next h
  · exact .of_next h
  · rw [h]
    exact endPortCommand_endsOrIsStuck hr

theorem execWord_endsOrIsStuck (w : CmdWord) (s : State) : EndsOrIsStuck s (execWord w s) := by
  cases hdecode : decode w with
  | ok i =>
    rw [execWord_of_decode_ok hdecode]
    exact exec_endsOrIsStuck i s
  | error e => exact .of_next (execWord_of_decode_error hdecode s)

/-- Storing CMD records the access and does not write STATUS, so a command that is stuck leaves STATUS as it was before. -/
theorem hostWrite_endsOrIsStuck (i : Byte) (v : HostWord) (s : State) : EndsOrIsStuck s (hostWrite i v s) := by
  by_cases hi : i = 0x00
  · subst hi
    rw [hostWrite_cmd]
    exact (execWord_endsOrIsStuck _ _).imp_right fun ⟨t, h, hstuck⟩ =>
      ⟨t, h, hstuck.of_earlier rfl (storeHostWrite_status 0x00 v s)⟩
  · exact .of_next (hostWrite_of_ne_cmd hi v s)

theorem perform_endsOrIsStuck (a : HostAccess) (s : State) : EndsOrIsStuck s (perform a s) := by
  cases a with
  | write i v => exact hostWrite_endsOrIsStuck i v s
  | read i => exact .of_next rfl
  | reset => exact .of_next rfl

theorem step_endsOrIsStuck (s : State) : EndsOrIsStuck s (step s) := by
  cases hhost : s.host with
  | nil => exact .of_next (step_of_host_nil hhost)
  | cons a rest =>
    rw [step_of_host_cons hhost]
    exact perform_endsOrIsStuck a (setHost s rest)

/-- Settles O26: a step is at most one access, and an access is stuck only in the command of a CMD write. -/
theorem onlyAnUnansweredPortStopsTheBlock : Obligations.OnlyAnUnansweredPortStopsTheBlock := fun s =>
  (step_endsOrIsStuck s).imp_right fun ⟨t, hfault, l, e, hstuck⟩ => ⟨t, l, e, hfault, hstuck⟩

end Sys2Proof.Machine
